-- ==== Sys2Proof/Word.lean ====
section
/-! DEFINITION. The words of the block (spec/00_scope.md R10): every quantity is unsigned. -/

namespace Sys2Proof

/-- `u8`: what the bus port moves (R70). -/
abbrev Byte := BitVec 8

/-- `u16`: a status, a CRC16 (R115, R160). -/
abbrev Half := BitVec 16

/-- `u32`: a command argument, a host address or length (R54, R73). -/
abbrev Word := BitVec 32

end Sys2Proof
end

