-- ==== Sys2Proof/Machine/Crc.lean ====
section
/-! DEFINITION. The two CRC engines (spec/40_crc.md R110-R119): pure functions over byte sequences. -/

namespace Sys2Proof.Machine

/-- One input bit of the CRC7 register (R111): feedback, shift, taps at bits 3 and 0. -/
def crc7Bit (c : BitVec 7) (d : Bool) : BitVec 7 :=
  if d ^^ c.getMsbD 0 then (c <<< 1) ^^^ 0b0001001#7 else c <<< 1

/-- One input byte, most significant bit first (R111, R59). -/
def crc7Byte (c : BitVec 7) (d : Byte) : BitVec 7 :=
  [7, 6, 5, 4, 3, 2, 1, 0].foldl (fun c i => crc7Bit c (d.getLsbD i)) c

/-- `CRC7(data)` (R111), the register starting at 0. -/
def crc7 (data : List Byte) : BitVec 7 := data.foldl crc7Byte 0

/-- `CRC7_byte(data)` (R112): the CRC in bits 7:1, the end bit 1. -/
def crc7TxByte (data : List Byte) : Byte := ((crc7 data).setWidth 8 <<< 1) ||| 1

/-- One input bit of the 8-bit-register form of CRC7 (R113): shift, then test bit 7 of the shifted register. -/
def crc7AccBit (a : Byte) (d : Bool) : Byte :=
  if d ^^ (a <<< 1).getMsbD 0 then (a <<< 1) ^^^ 0x09 else a <<< 1

/-- One input byte of the 8-bit-register form (R113). -/
def crc7AccByte (a : Byte) (d : Byte) : Byte :=
  [7, 6, 5, 4, 3, 2, 1, 0].foldl (fun a i => crc7AccBit a (d.getLsbD i)) a

/-- The seed of the 8-bit-register form at the end, `a[6:0]` (R113). -/
def crc7Acc (data : List Byte) : BitVec 7 := (data.foldl crc7AccByte 0).setWidth 7

/-- One input bit of the CRC16 register (R115): taps at bits 12, 5 and 0. -/
def crc16Bit (c : Half) (d : Bool) : Half :=
  if d ^^ c.getMsbD 0 then (c <<< 1) ^^^ 0x1021 else c <<< 1

/-- One input byte, most significant bit first (R115, R59). -/
def crc16Byte (c : Half) (d : Byte) : Half :=
  [7, 6, 5, 4, 3, 2, 1, 0].foldl (fun c i => crc16Bit c (d.getLsbD i)) c

/-- `CRC16(data)` (R115), the register starting at 0, no final inversion. -/
def crc16 (data : List Byte) : Half := data.foldl crc16Byte 0

/-- `CRC16_gen(payload)` (R118, R56): most significant byte first. -/
def crc16Gen (p : List Byte) : List Byte :=
  [(crc16 p).extractLsb' 8 8, (crc16 p).extractLsb' 0 8]

/-- `CRC16_check(payload, hi, lo)` (R119). -/
def crc16Check (p : List Byte) (hi lo : Byte) : Bool := hi ++ lo == crc16 p

end Sys2Proof.Machine
end

