-- ==== Sys2Proof/Config.lean ====
section
/-! DEFINITION. What an implementation fixes: the named parameters of spec/00_scope.md R8, the command
indices of spec/30_encoding.md R72, and the one free value of the model, the card's answers. -/

namespace Sys2Proof

/-- The thirteen commands the block emits, by the role the document gives each (R72, R140-R152). -/
inductive Cmd
  | reset | sendOpCond | ifCond | stopTransmission | sendStatus | setBlockLen
  | readSingle | readMulti | writeSingle | writeMulti | appOpCond | appPrefix | readOcr
  deriving DecidableEq, Repr

/-- Every command, in the order of the table of R72. -/
def Cmd.all : List Cmd :=
  [.reset, .sendOpCond, .ifCond, .stopTransmission, .sendStatus, .setBlockLen,
   .readSingle, .readMulti, .writeSingle, .writeMulti, .appOpCond, .appPrefix, .readOcr]

/-- The implementation parameters of R8: "A model takes each as an argument." A machine carries its own
in `State.cfg` and no step writes it, so a statement about every state is a statement about every
configuration (log 4). -/
structure Config where
  /-- `RESP_POLL_MAX`: receive attempts for the first response byte of a command (R133). -/
  respPollMax : Nat
  /-- `TOKEN_POLL_MAX`: receive attempts for a start or error token (R214). -/
  tokenPollMax : Nat
  /-- `DRESP_POLL_MAX`: receive attempts for the data-response token (R221). -/
  drespPollMax : Nat
  /-- `INIT_POLL_MAX`: attempts of the step-4 SD loop and of the fallback loop (R177, R178). -/
  initPollMax : Nat
  /-- `OCR_POLL_MAX`: attempts of the step-5 OCR loop (R180). -/
  ocrPollMax : Nat
  /-- `CLK_SLOW`, an opaque rate passed to the port unchanged (R321). -/
  clkSlow : Nat
  /-- `CLK_FAST`, an opaque rate passed to the port unchanged (R321). -/
  clkFast : Nat
  /-- The command indices `CMD_*` of R72, six bits each. -/
  idxReset : BitVec 6
  idxSendOpCond : BitVec 6
  idxIfCond : BitVec 6
  idxStopTransmission : BitVec 6
  idxSendStatus : BitVec 6
  idxSetBlockLen : BitVec 6
  idxReadSingle : BitVec 6
  idxReadMulti : BitVec 6
  idxWriteSingle : BitVec 6
  idxWriteMulti : BitVec 6
  idxAppOpCond : BitVec 6
  idxAppPrefix : BitVec 6
  idxReadOcr : BitVec 6
  /-- `TOK_START_SINGLE` (R88). -/
  tokStartSingle : Byte
  /-- `TOK_START_MULTI_WR` (R89). -/
  tokStartMultiWr : Byte
  /-- `TOK_START_MULTI_RD` (R90). -/
  tokStartMultiRd : Byte
  /-- `TOK_STOP_MULTI_WR` (R91). -/
  tokStopMultiWr : Byte
  /-- `ERR_TOKEN_MASK` (R92). -/
  errTokenMask : Byte
  /-- `CHECK_PATTERN` (R73). -/
  checkPattern : Byte
  /-- `VHS_CODE` (R73). -/
  vhsCode : BitVec 4
  /-- `OCR_VWIN_BIT`: the OCR bit step 3 tests (R84). -/
  ocrVwinBit : Fin 32
  /-- `IDLE_FILL`: the byte the idle bus reads as (R78, R133, R139). -/
  idleFill : Byte
  /-- `BLOCK_LEN_OP`: the block length set at the end of negotiation (R182), 512 if valid (R9, R27). -/
  blockLenOp : Word
  /-- `ADDR_W`: the width of the host's address and length operands (R54). -/
  addrW : Nat
  deriving DecidableEq, Repr

namespace Config

/-- The index of a command under a configuration (R72). -/
def idx (c : Config) : Cmd → BitVec 6
  | .reset => c.idxReset
  | .sendOpCond => c.idxSendOpCond
  | .ifCond => c.idxIfCond
  | .stopTransmission => c.idxStopTransmission
  | .sendStatus => c.idxSendStatus
  | .setBlockLen => c.idxSetBlockLen
  | .readSingle => c.idxReadSingle
  | .readMulti => c.idxReadMulti
  | .writeSingle => c.idxWriteSingle
  | .writeMulti => c.idxWriteMulti
  | .appOpCond => c.idxAppOpCond
  | .appPrefix => c.idxAppPrefix
  | .readOcr => c.idxReadOcr

/-- The default configuration of R8, R72 and R88-R92. The five poll budgets and the two clock rates are
OPEN in the spec: DESIGN CHOICE, the budgets are its test profile and the rates two distinct symbols
(log 4). The indices, tokens, pattern, code and bit are the spec's own defaults (log 12). -/
def standard : Config where
  respPollMax := 8
  tokenPollMax := 8
  drespPollMax := 8
  initPollMax := 4
  ocrPollMax := 4
  clkSlow := 0
  clkFast := 1
  idxReset := 0
  idxSendOpCond := 1
  idxIfCond := 8
  idxStopTransmission := 12
  idxSendStatus := 13
  idxSetBlockLen := 16
  idxReadSingle := 17
  idxReadMulti := 18
  idxWriteSingle := 24
  idxWriteMulti := 25
  idxAppOpCond := 41
  idxAppPrefix := 55
  idxReadOcr := 58
  tokStartSingle := 0xFE
  tokStartMultiWr := 0xFC
  tokStartMultiRd := 0xFC
  tokStopMultiWr := 0xFD
  errTokenMask := 0xE0
  checkPattern := 0xAA
  vhsCode := 0x1
  ocrVwinBit := 20
  idleFill := 0xFF
  blockLenOp := 512
  addrW := 32

/-- Bits 7:5 of a byte are 0b111, as R92 says of every start token of R88-R90. -/
def startTokenShape (t : Byte) : Bool := t.extractLsb' 5 3 == 0b111#3

/-- The constraints on a configuration: every budget is at least 1 (R8), the thirteen indices are distinct
(R72), the tokens of R88-R91 are pairwise distinct except as R90 allows and none is `IDLE_FILL` (R8), every
start token has bits 7:5 = 0b111, and neither a start token nor `IDLE_FILL` is an error token (R92).
`BLOCK_LEN_OP` is 512, the only block length the spec has (R9, R22, R27, C3, D38). How these rules bear on the
parameters of R8 is log 23. -/
def valid (c : Config) : Bool :=
  (decide (1 ≤ c.respPollMax) && decide (1 ≤ c.tokenPollMax) && decide (1 ≤ c.drespPollMax)
    && decide (1 ≤ c.initPollMax) && decide (1 ≤ c.ocrPollMax))
  && decide ((Cmd.all.map c.idx).Nodup)
  && (decide (c.tokStartSingle ≠ c.tokStartMultiWr) && decide (c.tokStartSingle ≠ c.tokStopMultiWr)
    && decide (c.tokStartMultiWr ≠ c.tokStopMultiWr) && decide (c.tokStartMultiRd ≠ c.tokStopMultiWr))
  && (decide (c.tokStartSingle ≠ c.idleFill) && decide (c.tokStartMultiWr ≠ c.idleFill)
    && decide (c.tokStartMultiRd ≠ c.idleFill) && decide (c.tokStopMultiWr ≠ c.idleFill))
  && (startTokenShape c.tokStartSingle && startTokenShape c.tokStartMultiWr && startTokenShape c.tokStartMultiRd)
  && (decide (c.tokStartSingle &&& c.errTokenMask ≠ 0) && decide (c.tokStartMultiWr &&& c.errTokenMask ≠ 0)
    && decide (c.tokStartMultiRd &&& c.errTokenMask ≠ 0) && decide (c.idleFill &&& c.errTokenMask ≠ 0))
  && decide (c.blockLenOp = 512)

/-- FREE VALUE (U3 of spec/93_implementation_defined.md): the byte the card answers to the n-th `Recv()`
that `State.cardIn` has no answer for. Nothing can evaluate it, so a claim holds for every card (log 2). -/
opaque cardByte : Nat → Byte

end Config
end Sys2Proof
end

