-- ==== Sys2Proof/Syntax.lean ====
section
/-! DEFINITION. The instruction set: one constructor per row of spec/opcode_table.json
(spec/30_encoding.md R102): host operations, commands, the application command, tokens. -/

namespace Sys2Proof

/-- One constructor per row of the opcode table. A host operation's operands are registers (R97). A
command carries its 32-bit argument and the CRC field of its packet (R71). A data-response token
carries the three ignored bits 7:5 (R93). -/
inductive Instr
  -- host operations (R98)
  | reserved0
  | init
  | readBlock
  | writeBlock
  | readBlocks
  | writeBlocks
  | readStatus
  | getIsMmc
  | getBlockLen
  | getIsHc
  | reservedA
  | eraseOutOfScope
  | getSizeOutOfScope
  | reservedD
  | reservedE
  | reservedF
  -- commands (R72)
  | cmdReset (arg : Word) (crc : BitVec 7)
  | cmdSendOpCond (arg : Word) (crc : BitVec 7)
  | cmdIfCond (arg : Word) (crc : BitVec 7)
  | cmdStopTransmission (arg : Word) (crc : BitVec 7)
  | cmdSendStatus (arg : Word) (crc : BitVec 7)
  | cmdSetBlockLen (arg : Word) (crc : BitVec 7)
  | cmdReadSingle (arg : Word) (crc : BitVec 7)
  | cmdReadMulti (arg : Word) (crc : BitVec 7)
  | cmdWriteSingle (arg : Word) (crc : BitVec 7)
  | cmdWriteMulti (arg : Word) (crc : BitVec 7)
  | cmdAppOpCond (arg : Word) (crc : BitVec 7)
  | cmdAppPrefix (arg : Word) (crc : BitVec 7)
  | cmdReadOcr (arg : Word) (crc : BitVec 7)
  /-- The pseudo-instruction `ACMD41(arg)` (R101, R153): the pair of packets; `crc` is the second packet's. -/
  | acmd41 (arg : Word) (crc : BitVec 7)
  -- tokens (R87-R93)
  | tokStartSingle
  | tokStartMultiWr
  | tokStartMultiRd
  | tokStopMultiWr
  /-- A read error token, the whole byte received (R92). -/
  | errorToken (b : Byte)
  | dataRespAccepted (hi : BitVec 3)
  | dataRespCrcRejected (hi : BitVec 3)
  | dataRespWriteRejected (hi : BitVec 3)
  deriving DecidableEq, Repr

namespace Instr

/-- The command row for a command, argument and CRC field. -/
def ofCmd : Cmd → Word → BitVec 7 → Instr
  | .reset, a, c => .cmdReset a c
  | .sendOpCond, a, c => .cmdSendOpCond a c
  | .ifCond, a, c => .cmdIfCond a c
  | .stopTransmission, a, c => .cmdStopTransmission a c
  | .sendStatus, a, c => .cmdSendStatus a c
  | .setBlockLen, a, c => .cmdSetBlockLen a c
  | .readSingle, a, c => .cmdReadSingle a c
  | .readMulti, a, c => .cmdReadMulti a c
  | .writeSingle, a, c => .cmdWriteSingle a c
  | .writeMulti, a, c => .cmdWriteMulti a c
  | .appOpCond, a, c => .cmdAppOpCond a c
  | .appPrefix, a, c => .cmdAppPrefix a c
  | .readOcr, a, c => .cmdReadOcr a c

end Instr

/-- What kind of item a byte string stands for. The patterns of the table overlap between kinds (a byte
0x05 is `REQ_OP` 5 or a data response), and the block knows from its position which kind it reads. -/
inductive Fmt
  /-- `REQ_OP` at a start (R97), in the low four bits of one byte. -/
  | hostOp
  /-- A command packet of 6 bytes, or the two packets of an application command (R71, R76). -/
  | packet
  /-- A token the block sends (R88, R89, R91). -/
  | txToken
  /-- A byte received while waiting for the start token of a single or multi-block read (R94). -/
  | rxToken (multi : Bool)
  /-- The first non-idle byte after a written frame (R93). -/
  | dataResp
  deriving DecidableEq, Repr

/-- The kind of item each instruction is. `TOK_START_SINGLE` is both sent and awaited (R88): its home here
is the awaited form, and `Fmt.txToken` decodes to it too. An error token may come in either wait. -/
def Instr.fmt : Instr → Fmt
  | .reserved0 => .hostOp
  | .init => .hostOp
  | .readBlock => .hostOp
  | .writeBlock => .hostOp
  | .readBlocks => .hostOp
  | .writeBlocks => .hostOp
  | .readStatus => .hostOp
  | .getIsMmc => .hostOp
  | .getBlockLen => .hostOp
  | .getIsHc => .hostOp
  | .reservedA => .hostOp
  | .eraseOutOfScope => .hostOp
  | .getSizeOutOfScope => .hostOp
  | .reservedD => .hostOp
  | .reservedE => .hostOp
  | .reservedF => .hostOp
  | .cmdReset _ _ => .packet
  | .cmdSendOpCond _ _ => .packet
  | .cmdIfCond _ _ => .packet
  | .cmdStopTransmission _ _ => .packet
  | .cmdSendStatus _ _ => .packet
  | .cmdSetBlockLen _ _ => .packet
  | .cmdReadSingle _ _ => .packet
  | .cmdReadMulti _ _ => .packet
  | .cmdWriteSingle _ _ => .packet
  | .cmdWriteMulti _ _ => .packet
  | .cmdAppOpCond _ _ => .packet
  | .cmdAppPrefix _ _ => .packet
  | .cmdReadOcr _ _ => .packet
  | .acmd41 _ _ => .packet
  | .tokStartSingle => .rxToken false
  | .tokStartMultiWr => .txToken
  | .tokStartMultiRd => .rxToken true
  | .tokStopMultiWr => .txToken
  | .errorToken _ => .rxToken false
  | .dataRespAccepted _ => .dataResp
  | .dataRespCrcRejected _ => .dataResp
  | .dataRespWriteRejected _ => .dataResp

end Sys2Proof
end

