-- ==== Sys2Proof/Machine/Packet.lean ====
section
/-! DEFINITION. The command packet (spec/30_encoding.md R71-R77, spec/41_command_framer.md R131) and the
byte order of multi-byte values (spec/20_memory.md R55, R58). -/

namespace Sys2Proof.Machine

/-- The four bytes of a 32-bit value, most significant first (R55). -/
def be32 (w : Word) : List Byte :=
  [w.extractLsb' 24 8, w.extractLsb' 16 8, w.extractLsb' 8 8, w.extractLsb' 0 8]

/-- The value of bytes read big-endian (R58): `{b0, b1, ...}` in the low bits of a word. -/
def ofBe (bs : List Byte) : Word := bs.foldl (fun w b => (w <<< 8) ||| b.setWidth 32) 0

/-- `PKT[0]`: start bit 0, transmission bit 1, the index (R71). -/
def packetByte0 (idx : BitVec 6) : Byte := 0b01#2 ++ idx

/-- The first five bytes of a packet (R71). -/
def packetHead (idx : BitVec 6) (arg : Word) : List Byte := packetByte0 idx :: be32 arg

/-- A 6-byte packet with a given CRC field and the end bit 1 (R71). -/
def packet (idx : BitVec 6) (arg : Word) (crc : BitVec 7) : List Byte :=
  packetHead idx arg ++ [crc ++ 1#1]

/-- `Frame(idx, arg)` (R131): "the CRC byte is computed for every packet" (R74). -/
def frame (idx : BitVec 6) (arg : Word) : List Byte :=
  packetHead idx arg ++ [crc7TxByte (packetHead idx arg)]

/-- A well-formed packet (R77), as a checker of a recorded bus trace reads it. -/
def packetWellFormed : List Byte → Bool
  | [p0, p1, p2, p3, p4, p5] =>
    p0.extractLsb' 6 2 == 0b01#2 && p5.getLsbD 0 && p5.extractLsb' 1 7 == crc7 [p0, p1, p2, p3, p4]
  | _ => false

/-- The response length of a command: "determined solely by which command was issued" (R75). -/
def respLen : Cmd → Nat
  | .ifCond => 5
  | .readOcr => 5
  | .sendStatus => 2
  | .reset => 1
  | .sendOpCond => 1
  | .stopTransmission => 1
  | .setBlockLen => 1
  | .readSingle => 1
  | .readMulti => 1
  | .writeSingle => 1
  | .writeMulti => 1
  | .appOpCond => 1
  | .appPrefix => 1

/-- The voltage-check argument (R73): `{20'b0, VHS_CODE[3:0], CHECK_PATTERN[7:0]}`. -/
def ifCondArg (c : Config) : Word := (c.vhsCode ++ c.checkPattern).setWidth 32

/-- Bit 30, the high-capacity-support bit, alone (R73). -/
def hcsArg : Word := 0x40000000

/-- The arguments R73 allows each command: a block command takes any address, `CMD_APP_OP_COND` bit 30 or
nothing, the others one value. -/
def argAllowed (c : Config) (k : Cmd) (arg : Word) : Bool :=
  match k with
  | .readSingle => true
  | .readMulti => true
  | .writeSingle => true
  | .writeMulti => true
  | .ifCond => arg == ifCondArg c
  | .appOpCond => arg == 0 || arg == hcsArg
  | .setBlockLen => arg == c.blockLenOp
  | .reset => arg == 0
  | .sendOpCond => arg == 0
  | .stopTransmission => arg == 0
  | .sendStatus => arg == 0
  | .appPrefix => arg == 0
  | .readOcr => arg == 0

end Sys2Proof.Machine
end

