-- ==== Sys2Proof/WellFormed.lean ====
section
/-! DEFINITION. Well-formed instructions: the CRC field of a packet is `CRC7` of its first five bytes
(spec/30_encoding.md R71, R74), its argument is one of R73, and an error token matches the mask (R92). -/

namespace Sys2Proof

/-- A command row is well formed: right CRC field, allowed argument (R71, R73, R77). -/
def cmdWellFormed (c : Config) (k : Cmd) (arg : Word) (crc : BitVec 7) : Bool :=
  crc == Machine.crc7 (Machine.packetHead (c.idx k) arg) && Machine.argAllowed c k arg

/-- Well-formedness of every row under a configuration. -/
def Instr.wellFormed (c : Config) : Instr → Bool
  | .reserved0 => true
  | .init => true
  | .readBlock => true
  | .writeBlock => true
  | .readBlocks => true
  | .writeBlocks => true
  | .readStatus => true
  | .getIsMmc => true
  | .getBlockLen => true
  | .getIsHc => true
  | .reservedA => true
  | .eraseOutOfScope => true
  | .getSizeOutOfScope => true
  | .reservedD => true
  | .reservedE => true
  | .reservedF => true
  | .cmdReset a r => cmdWellFormed c .reset a r
  | .cmdSendOpCond a r => cmdWellFormed c .sendOpCond a r
  | .cmdIfCond a r => cmdWellFormed c .ifCond a r
  | .cmdStopTransmission a r => cmdWellFormed c .stopTransmission a r
  | .cmdSendStatus a r => cmdWellFormed c .sendStatus a r
  | .cmdSetBlockLen a r => cmdWellFormed c .setBlockLen a r
  | .cmdReadSingle a r => cmdWellFormed c .readSingle a r
  | .cmdReadMulti a r => cmdWellFormed c .readMulti a r
  | .cmdWriteSingle a r => cmdWellFormed c .writeSingle a r
  | .cmdWriteMulti a r => cmdWellFormed c .writeMulti a r
  | .cmdAppOpCond a r => cmdWellFormed c .appOpCond a r
  | .cmdAppPrefix a r => cmdWellFormed c .appPrefix a r
  | .cmdReadOcr a r => cmdWellFormed c .readOcr a r
  | .acmd41 a r => cmdWellFormed c .appOpCond a r
  | .tokStartSingle => true
  | .tokStartMultiWr => true
  | .tokStartMultiRd => true
  | .tokStopMultiWr => true
  | .errorToken b => b &&& c.errTokenMask == 0
  | .dataRespAccepted _ => true
  | .dataRespCrcRejected _ => true
  | .dataRespWriteRejected _ => true

end Sys2Proof
end

