-- ==== Sys2Proof/Decode.lean ====
section
/-! DEFINITION. Decoding, total on any bytes and rejecting by name, and the encoder
(spec/30_encoding.md R71, R77, R87-R94, R98; spec/opcode_table.json). -/

namespace Sys2Proof

/-- Why bytes are no item of a kind. -/
inductive DecodeError
  /-- Not the number of bytes the kind has (R71, R97). -/
  | badLength
  /-- `REQ_OP` has four bits (R97). -/
  | badReqOp
  /-- Bits 47:46 are not 01 (R77). -/
  | badStartBits
  /-- Bit 0 is not 1 (R77). -/
  | badEndBit
  /-- The index is none of R72. -/
  | unknownIndex (idx : BitVec 6)
  /-- Two packets that are not a framed prefix command and `CMD_APP_OP_COND` (R76). -/
  | notAppPair
  /-- A byte the rule that reads it skips or calls unknown (R93, R94, R96). -/
  | notAToken (b : Byte)
  deriving DecidableEq, Repr

/-- `REQ_OP` to host operation (R98): every code has a row. -/
def decodeHostOp (op : BitVec 4) : Instr :=
  match op.toNat with
  | 0 => .reserved0
  | 1 => .init
  | 2 => .readBlock
  | 3 => .writeBlock
  | 4 => .readBlocks
  | 5 => .writeBlocks
  | 6 => .readStatus
  | 7 => .getIsMmc
  | 8 => .getBlockLen
  | 9 => .getIsHc
  | 10 => .reservedA
  | 11 => .eraseOutOfScope
  | 12 => .getSizeOutOfScope
  | 13 => .reservedD
  | 14 => .reservedE
  | _ => .reservedF

/-- The command that has an index under a configuration (R72). -/
def cmdOfIdx (c : Config) (idx : BitVec 6) : Option Cmd := Cmd.all.find? fun k => c.idx k == idx

/-- One packet, read as the table's masks read it (R77, R102): start bits, index, end bit; the argument and
the CRC field are operands. That the CRC field is right is `Instr.wellFormed`. -/
def decodePacket (c : Config) (p0 p1 p2 p3 p4 p5 : Byte) : Except DecodeError Instr :=
  if p0.extractLsb' 6 2 ≠ 0b01#2 then .error .badStartBits
  else if p5.getLsbD 0 = false then .error .badEndBit
  else match cmdOfIdx c (p0.extractLsb' 0 6) with
    | none => .error (.unknownIndex (p0.extractLsb' 0 6))
    | some k => .ok (.ofCmd k (Machine.ofBe [p1, p2, p3, p4]) (p5.extractLsb' 1 7))

/-- The two packets of an application command (R76, R136): the framed prefix command with argument 0, then
`CMD_APP_OP_COND`, the document's only instance (R101). -/
def decodeAppPair (c : Config) (first second : List Byte) : Except DecodeError Instr :=
  match second with
  | [p0, p1, p2, p3, p4, p5] =>
    if first ≠ Machine.frame (c.idx .appPrefix) 0 then .error .notAppPair
    else match decodePacket c p0 p1 p2 p3 p4 p5 with
      | .ok (.cmdAppOpCond a r) => .ok (.acmd41 a r)
      | _ => .error .notAppPair
  | _ => .error .badLength

/-- The start token a read waits for (R88, R90). -/
def rxStartToken (c : Config) (multi : Bool) : Byte :=
  if multi then c.tokStartMultiRd else c.tokStartSingle

/-- Classification of a byte received while waiting for a read start token (R94), in the rule's order. -/
def decodeRxToken (c : Config) (multi : Bool) (b : Byte) : Except DecodeError Instr :=
  if b = rxStartToken c multi then .ok (if multi then .tokStartMultiRd else .tokStartSingle)
  else if b &&& c.errTokenMask = 0 then .ok (.errorToken b)
  else .error (.notAToken b)

/-- A token the block sends (R88, R89, R91). -/
def decodeTxToken (c : Config) (b : Byte) : Except DecodeError Instr :=
  if b = c.tokStartSingle then .ok .tokStartSingle
  else if b = c.tokStartMultiWr then .ok .tokStartMultiWr
  else if b = c.tokStopMultiWr then .ok .tokStopMultiWr
  else .error (.notAToken b)

/-- A data-response token, bits 7:5 ignored (R93, R222): any other value is "unknown". -/
def decodeDataResp (b : Byte) : Except DecodeError Instr :=
  if b &&& 0x1F = 0x05 then .ok (.dataRespAccepted (b.extractLsb' 5 3))
  else if b &&& 0x1F = 0x0B then .ok (.dataRespCrcRejected (b.extractLsb' 5 3))
  else if b &&& 0x1F = 0x0D then .ok (.dataRespWriteRejected (b.extractLsb' 5 3))
  else .error (.notAToken b)

/-- The decoder: what a byte string stands for, given the kind of item the block reads there. -/
def decode (c : Config) (fmt : Fmt) (bytes : List Byte) : Except DecodeError Instr :=
  match fmt, bytes with
  | .hostOp, [b] => if b.extractLsb' 4 4 = 0 then .ok (decodeHostOp (b.extractLsb' 0 4)) else .error .badReqOp
  | .packet, [p0, p1, p2, p3, p4, p5] => decodePacket c p0 p1 p2 p3 p4 p5
  | .packet, q0 :: q1 :: q2 :: q3 :: q4 :: q5 :: second => decodeAppPair c [q0, q1, q2, q3, q4, q5] second
  | .txToken, [b] => decodeTxToken c b
  | .rxToken multi, [b] => decodeRxToken c multi b
  | .dataResp, [b] => decodeDataResp b
  | _, _ => .error .badLength

/-- The encoder, written from the tables of R71, R72, R76, R88-R93 and R98. -/
def encode (c : Config) : Instr → List Byte
  | .reserved0 => [0x0]
  | .init => [0x1]
  | .readBlock => [0x2]
  | .writeBlock => [0x3]
  | .readBlocks => [0x4]
  | .writeBlocks => [0x5]
  | .readStatus => [0x6]
  | .getIsMmc => [0x7]
  | .getBlockLen => [0x8]
  | .getIsHc => [0x9]
  | .reservedA => [0xA]
  | .eraseOutOfScope => [0xB]
  | .getSizeOutOfScope => [0xC]
  | .reservedD => [0xD]
  | .reservedE => [0xE]
  | .reservedF => [0xF]
  | .cmdReset a r => Machine.packet (c.idx .reset) a r
  | .cmdSendOpCond a r => Machine.packet (c.idx .sendOpCond) a r
  | .cmdIfCond a r => Machine.packet (c.idx .ifCond) a r
  | .cmdStopTransmission a r => Machine.packet (c.idx .stopTransmission) a r
  | .cmdSendStatus a r => Machine.packet (c.idx .sendStatus) a r
  | .cmdSetBlockLen a r => Machine.packet (c.idx .setBlockLen) a r
  | .cmdReadSingle a r => Machine.packet (c.idx .readSingle) a r
  | .cmdReadMulti a r => Machine.packet (c.idx .readMulti) a r
  | .cmdWriteSingle a r => Machine.packet (c.idx .writeSingle) a r
  | .cmdWriteMulti a r => Machine.packet (c.idx .writeMulti) a r
  | .cmdAppOpCond a r => Machine.packet (c.idx .appOpCond) a r
  | .cmdAppPrefix a r => Machine.packet (c.idx .appPrefix) a r
  | .cmdReadOcr a r => Machine.packet (c.idx .readOcr) a r
  | .acmd41 a r => Machine.frame (c.idx .appPrefix) 0 ++ Machine.packet (c.idx .appOpCond) a r
  | .tokStartSingle => [c.tokStartSingle]
  | .tokStartMultiWr => [c.tokStartMultiWr]
  | .tokStartMultiRd => [c.tokStartMultiRd]
  | .tokStopMultiWr => [c.tokStopMultiWr]
  | .errorToken b => [b]
  | .dataRespAccepted hi => [hi ++ 0x05#5]
  | .dataRespCrcRejected hi => [hi ++ 0x0B#5]
  | .dataRespWriteRejected hi => [hi ++ 0x0D#5]

/-! Words of the opcode table. Its patterns overlap between kinds, and a word alone does not say which kind
is meant: the kinds are tried in a fixed order (DESIGN CHOICE, log 13). -/

/-- The bytes of a table word of `n` bytes: bit `8 * n - 1` is bit 7 of the first byte (R70, R102). -/
def tableBytes : Nat → Nat → List Byte
  | 0, _ => []
  | n + 1, w => BitVec.ofNat 8 (w / 256 ^ n) :: tableBytes n w

/-- The kinds a table word of a width may stand for, in the order they are tried. -/
def tableFmts (nbits : Nat) : List Fmt :=
  if nbits ≤ 4 then [.hostOp]
  else if nbits ≤ 8 then [.hostOp, .rxToken false, .rxToken true, .txToken, .dataResp]
  else [.packet]

/-- The first kind under which bytes decode, with the instruction. -/
def firstDecoding (c : Config) (bytes : List Byte) : List Fmt → Option (Fmt × Instr)
  | [] => none
  | f :: fs =>
    match decode c f bytes with
    | .ok i => some (f, i)
    | .error _ => firstDecoding c bytes fs

/-- The kind and the instruction of a table word under a configuration. -/
def tableItem (c : Config) (nbits w : Nat) : Option (Fmt × Instr) :=
  firstDecoding c (tableBytes ((nbits + 7) / 8) w) (tableFmts nbits)

/-- The instruction the decoder reads from a word of the opcode table, under the default configuration
whose values the table lists. -/
def decodeTableWord (nbits w : Nat) : Option Instr := (tableItem Config.standard nbits w).map (·.2)

end Sys2Proof
end

