-- ==== Sys2Proof/Machine/State.lean ====
section
/-! DEFINITION. The state of the block (spec/10_state.md R20-R39), plain data; the reasons a step can stop;
the state after reset (spec/70_reset_and_hazards.md R301). -/

namespace Sys2Proof.Machine

/-- The error kinds of R261, in the order of their codes 1 to 15. `registerFetchFailed` and
`registerCrcInvalid` belong to the out-of-scope register decoder and no operation raises them. -/
inductive ErrorKind
  | responseTimeout | resetFailed | checkPatternInvalid | unsupportedVoltage | notASupportedCard
  | initTimeout | registerFetchFailed | registerCrcInvalid | addressMisaligned | addressOutOfBounds
  | dataLengthNotBlockMultiple | blockCrcInvalid | cardEccFailure | cardControllerFailure
  | unknownProtocolFault
  deriving DecidableEq, Repr

/-- `FAMILY` (R24). -/
inductive Family
  | sd | mmc
  deriving DecidableEq, Repr

/-- `GENERATION` (R25). -/
inductive Generation
  | legacy | v2
  deriving DecidableEq, Repr

/-- `CAP_CLASS` (R26). -/
inductive CapClass
  | standard | high
  deriving DecidableEq, Repr

/-- `CLOCK_MODE` (R28). -/
inductive ClockMode
  | slow | fast
  deriving DecidableEq, Repr

/-- `NEG_STATE` (R29). -/
inductive NegState
  | powerOn | idle | voltageChecked | familyKnown | negotiated | capacityClassified | ready | failed
  deriving DecidableEq, Repr

/-- Where a block transfer stands: single or multi-block, the index `j` of the current block and the
number `n` of blocks (the locals of R228 and R234; 0 and 1 for a single-block operation). -/
structure Xfer where
  multi : Bool
  block : Nat
  count : Nat
  deriving DecidableEq, Repr

/-- The position inside the running operation's procedure (R21), with the procedure's locals of R36. At a
position that issues a command, `PKT` holds that command's packet. -/
inductive Pos
  /-- `INIT` step 1: `CMD_RESET` is issued next (R172). -/
  | reset
  /-- `INIT` step 2: `CMD_IF_COND` (R173). -/
  | ifCond
  /-- `INIT` step 3: `CMD_READ_OCR` (R175). -/
  | ocrFamily
  /-- `INIT` step 4 begins: which loop (R177, R178). -/
  | step4
  /-- Step-4 SD loop, attempt `k`: the application prefix; `harg` is the target's argument (R177). -/
  | appPrefix (harg : Word) (k : Nat)
  /-- Step-4 SD loop, attempt `k`: the target command (R177). -/
  | appOpCond (harg : Word) (k : Nat)
  /-- Step-4 fallback loop, attempt `k` (R178). -/
  | opCond (k : Nat)
  /-- `INIT` step 5 begins: by generation (R180, R181). -/
  | step5
  /-- Step-5 loop, attempt `k` (R180). -/
  | ocrCapacity (k : Nat)
  /-- `INIT` step 6 begins: by capacity class (R182). -/
  | step6
  /-- `INIT` step 6: `CMD_SET_BLOCKLEN` (R182). -/
  | setBlockLen
  /-- `READ_STATUS`: `CMD_SEND_STATUS` (R160). -/
  | sendStatus
  /-- A read operation's command (R215, R228). -/
  | readCmd (x : Xfer)
  /-- The token poll before a block, attempt `k` (R214). -/
  | readToken (x : Xfer) (k : Nat)
  /-- A write operation's command (R220, R234). -/
  | writeCmd (x : Xfer)
  /-- A block is framed and sent next (R221). -/
  | writeFrame (x : Xfer)
  /-- The data-response poll, attempt `k` (R221). -/
  | dataResp (x : Xfer) (k : Nat)
  /-- The busy-wait after the data-response token `b` (R221, R139). -/
  | writeBusy (x : Xfer) (b : Byte)
  /-- The data-response token `b` is decoded next (R222). -/
  | writeVerdict (x : Xfer) (b : Byte)
  /-- The stop command of a multi-block read; `err` is the block error (R228, R229). -/
  | readStop (err : Option ErrorKind)
  /-- The busy-wait after the stop command; `err` is what will be raised (R229). -/
  | readStopBusy (err : Option ErrorKind)
  /-- The stop token of a multi-block write (R235). -/
  | writeStop (err : Option ErrorKind)
  /-- The busy-wait after the stop token (R235). -/
  | writeStopBusy (err : Option ErrorKind)
  deriving DecidableEq, Repr

/-- `OP_STATE` (R30) and, while BUSY, the position: the pair that is the block's control state (R21). -/
inductive OpState
  | idle
  | busy (pos : Pos)
  deriving DecidableEq, Repr

/-- One event on the bus port (R11, R286). -/
inductive BusEvent
  | select
  | deselect
  | send (b : Byte)
  | recv (b : Byte)
  | setClock (rate : Nat)
  deriving DecidableEq, Repr

/-- One action of the host (R30-R32, spec/95_test_vectors.md section 3), an input (log 3). -/
inductive HostAct
  | writeOp (v : BitVec 4)
  /-- Write `REQ_ADDR`: the register keeps the low `ADDR_W` bits (log 22). -/
  | writeAddr (v : Nat)
  /-- Write `REQ_LEN`, likewise. -/
  | writeLen (v : Nat)
  /-- Write bytes of TB from an offset on. -/
  | writeTB (offset : Nat) (bytes : List Byte)
  /-- Start the operation that `REQ_OP` selects. -/
  | start
  | readOpState
  | readResultKind
  | readResultValue
  | readTB (offset : Nat)
  /-- Let the block run until `OP_STATE` = IDLE. -/
  | wait
  /-- Let the block take one step. -/
  | pause
  deriving DecidableEq, Repr

/-- What a host read returned (R22, R32). -/
inductive HostVal
  | opState (v : BitVec 1)
  | resultKind (v : BitVec 4)
  | resultValue (v : Half)
  | tbByte (v : Byte)
  deriving DecidableEq, Repr

/-- The registers that may hold no value (R22, R301), by name. -/
inductive RegName
  | family | generation | capClass | blockLen | reqOp | reqAddr | reqLen | resultKind | resultValue | tb
  deriving DecidableEq, Repr

/-- The faults of the model. -/
inductive Fault
  /-- A read of a register or TB byte that holds no value (R33, R254, R302, U5, U6, U14). Raised by the
  accessors, by host reads, and by the block where it reads a request register or TB. Safe: the spec
  itself makes the read a fault. -/
  | noValue (r : RegName)
  /-- The host writes TB beyond the offsets any transfer can have (R52, R54). Raised by host actions.
  Safe: there is no such byte (log 7). -/
  | outsideTB
  deriving DecidableEq, Repr

/-- The refusals. -/
inductive Refusal
  /-- An instruction that has no meaning in this model yet. Raised by no arm of `exec`. Safe. -/
  | notModelled (mnemonic : String)
  /-- A start with a reserved `REQ_OP` (R100). Raised by the reserved codes. Safe: the spec refuses it. -/
  | reservedOp (code : BitVec 4)
  /-- A start with an out-of-scope `REQ_OP` (R7, R100). Raised by 0xB and 0xC. Safe: the spec refuses it. -/
  | outOfScopeOp (code : BitVec 4)
  /-- Block I/O started while `SESSION_VALID` = 0 (R210). Raised by the four block operations. Safe: the
  spec refuses it. -/
  | noSession
  /-- A block operation whose wire address does not fit the 32-bit argument, possible only with `ADDR_W`
  above 32. Raised by the four block operations. Safe: the spec refuses it for a high-capacity card (R54,
  U15); for a standard-capacity card it is DEDUCED (log 22). -/
  | addressTooWide
  /-- A host operation run while `OP_STATE` = BUSY (R310). Raised by the nine host operations; `step` never
  runs one then, it records the host's start as refused and the running operation goes on. Safe. -/
  | startWhileBusy
  /-- A command or token run where the running procedure does not issue, send or await it: there is no raw
  command (R130) and the block emits nothing else (R96). Raised by commands and tokens; `step` runs each
  only in its place. Safe (log 17). -/
  | outOfPlace
  /-- `PKT` holds no packet of R72 at a position that sends one: the block emits none (R96). Raised by
  `step` in states no run reaches. Safe. -/
  | badPacket (e : DecodeError)
  deriving DecidableEq, Repr

/-- The state: the registers of R22, the transient state of R34-R36, the parameters of R8, and the model's
own inputs, outputs and records (INVENTORY.md). `none` is the spec's UNSPEC (R22, log 5). -/
structure State where
  /-- The implementation parameters (R8); no step writes them. -/
  cfg : Config
  /-- `SESSION_VALID` (R23). -/
  sessionValid : Bool
  /-- `FAMILY` (R24). -/
  family : Option Family
  /-- `GENERATION` (R25). -/
  generation : Option Generation
  /-- `CAP_CLASS` (R26). -/
  capClass : Option CapClass
  /-- `BLOCK_LEN` (R27). -/
  blockLen : Option Word
  /-- `CLOCK_MODE` (R28). -/
  clockMode : ClockMode
  /-- `NEG_STATE` (R29). -/
  negState : NegState
  /-- `OP_STATE` (R30) with the position in the procedure (R21). -/
  opState : OpState
  /-- `REQ_OP` (R31). -/
  reqOp : Option (BitVec 4)
  /-- `REQ_ADDR`, `ADDR_W` bits (R8, R31, R54): a number below `2 ^ cfg.addrW`, which the block only divides and
  compares (log 22). -/
  reqAddr : Option Nat
  /-- `REQ_LEN`, `ADDR_W` bits (R8, R31, R54), likewise. -/
  reqLen : Option Nat
  /-- `RESULT_KIND` (R32). -/
  resultKind : Option (BitVec 4)
  /-- `RESULT_VALUE` (R32). -/
  resultValue : Option Half
  /-- `TB` (R52): the bytes that hold a value, by rising offset (log 7). -/
  tb : List Host.Cell
  /-- `PKT` (R34): empty when it holds no value. -/
  pkt : List Byte
  /-- `RESP` (R35): empty when it holds no value. -/
  resp : List Byte
  /-- Record: the bus-port events so far, oldest first (R11). -/
  bus : List BusEvent
  /-- Input: the card's coming answers (R11, R288; log 2). -/
  cardIn : List Byte
  /-- The number of free answers drawn from `Config.cardByte` (log 2). -/
  draws : Nat
  /-- Input: the host's coming actions (log 3). -/
  hostIn : List HostAct
  /-- Output: what the host has read, oldest first (log 3). -/
  hostOut : List HostVal
  /-- Record: host actions refused while BUSY, oldest first (R310, R264; log 6). -/
  refusedActs : List HostAct
  deriving DecidableEq, Repr

/-- The state after power-on reset (R301, R303): no bus event, no operation, no value where the table says
UNSPEC. The configuration and the model's own fields are DESIGN CHOICE (log 2, 3, 4). -/
def State.reset : State where
  cfg := Config.standard
  sessionValid := false
  family := none
  generation := none
  capClass := none
  blockLen := none
  clockMode := .slow
  negState := .powerOn
  opState := .idle
  reqOp := none
  reqAddr := none
  reqLen := none
  resultKind := none
  resultValue := none
  tb := []
  pkt := []
  resp := []
  bus := []
  cardIn := []
  draws := 0
  hostIn := []
  hostOut := []
  refusedActs := []

end Sys2Proof.Machine
end

