-- ==== Sys2Proof/Machine/Flags.lean ====
section
/-! DEFINITION. The condition bits the block parses and the codes of its registers: R1 and OCR bits
(spec/30_encoding.md R80-R84), response predicates (spec/41_command_framer.md R135), the classifications of
R213, R217 and R222, the register encodings of R24-R30 and R261. -/

namespace Sys2Proof.Machine

/-- `RESULT_KIND` code of an error kind (R261). -/
def ErrorKind.code : ErrorKind → BitVec 4
  | .responseTimeout => 1
  | .resetFailed => 2
  | .checkPatternInvalid => 3
  | .unsupportedVoltage => 4
  | .notASupportedCard => 5
  | .initTimeout => 6
  | .registerFetchFailed => 7
  | .registerCrcInvalid => 8
  | .addressMisaligned => 9
  | .addressOutOfBounds => 10
  | .dataLengthNotBlockMultiple => 11
  | .blockCrcInvalid => 12
  | .cardEccFailure => 13
  | .cardControllerFailure => 14
  | .unknownProtocolFault => 15

/-- What is written to `RESULT_KIND` at the end of an operation: 0 for success (R32, R268). -/
def resultCode : Option ErrorKind → BitVec 4
  | none => 0
  | some e => e.code

/-- `FAMILY`: 0 SD, 1 MMC (R24). -/
def Family.code : Family → BitVec 1
  | .sd => 0
  | .mmc => 1

/-- `GENERATION`: 0 legacy, 1 v2+ (R25). -/
def Generation.code : Generation → BitVec 1
  | .legacy => 0
  | .v2 => 1

/-- `CAP_CLASS`: 0 standard, 1 high (R26). -/
def CapClass.code : CapClass → BitVec 1
  | .standard => 0
  | .high => 1

/-- `CLOCK_MODE`: 0 SLOW, 1 FAST (R28). -/
def ClockMode.code : ClockMode → BitVec 1
  | .slow => 0
  | .fast => 1

/-- `NEG_STATE` encoding (R29). -/
def NegState.code : NegState → BitVec 3
  | .powerOn => 0
  | .idle => 1
  | .voltageChecked => 2
  | .familyKnown => 3
  | .negotiated => 4
  | .capacityClassified => 5
  | .ready => 6
  | .failed => 7

/-- `OP_STATE`: 0 IDLE, 1 BUSY (R30). -/
def OpState.bit : OpState → BitVec 1
  | .idle => 0
  | .busy _ => 1

/-- `idle(r)`, bit 0; in step 4 the "busy bit" (R80, R135). -/
def r1Idle (r : Byte) : Bool := r.getLsbD 0

/-- `illegal(r)`, bit 2 (R80, R135). -/
def r1Illegal (r : Byte) : Bool := r.getLsbD 2

/-- `addr_err(r)`, bit 5 (R80, R135). -/
def r1AddrErr (r : Byte) : Bool := r.getLsbD 5

/-- `param_err(r)`, bit 6 (R80, R135). -/
def r1ParamErr (r : Byte) : Bool := r.getLsbD 6

/-- `r1_ok(r)` (R135). -/
def r1Ok (r : Byte) : Bool := r == 0x00

/-- `prefix_ok(r)`: only the idle bit may be set (R135). -/
def r1PrefixOk (r : Byte) : Bool := r &&& 0xFE == 0x00

/-- `OCR_PWRUP`, bit 31 (R84). -/
def ocrPwrUp (ocr : Word) : Bool := ocr.getLsbD 31

/-- `OCR_CCS`, bit 30 (R84), as a capacity class (R180). -/
def ocrCapClass (ocr : Word) : CapClass := if ocr.getLsbD 30 then .high else .standard

/-- The declared supported-voltage-window bit `OCR_VWIN_BIT` (R84). -/
def ocrVoltageWindow (c : Config) (ocr : Word) : Bool := ocr.getLsbD c.ocrVwinBit.val

/-- `CheckCmdResp(r)` (R213): the error raised, in its priority. -/
def checkCmdResp (r : Byte) : Option ErrorKind :=
  if r1Ok r then none
  else if r1AddrErr r then some .addressMisaligned
  else if r1ParamErr r then some .addressOutOfBounds
  else some .unknownProtocolFault

/-- `DecodeErrorToken(b)` (R217), in its priority. -/
def decodeErrorToken (b : Byte) : ErrorKind :=
  if b.getLsbD 3 then .addressOutOfBounds
  else if b.getLsbD 2 then .cardEccFailure
  else if b.getLsbD 1 then .cardControllerFailure
  else .unknownProtocolFault

end Sys2Proof.Machine
end

