-- ==== Sys2Proof/Machine/Operands.lean ====
section
/-! DEFINITION. Operand forms: the wire address of a block command (spec/20_memory.md R53), the alignment
checks (R61), the argument of the negotiation command (spec/30_encoding.md R73), register reads that fault
where the register holds no value (spec/10_state.md R33), the widths of the operands (spec/20_memory.md R54). -/

namespace Sys2Proof.Machine

/-- A register's value, or the fault of reading one that holds none (R33). -/
def withReg (r : RegName) (v : Option α) (k : α → Host.Outcome State Fault Refusal) :
    Host.Outcome State Fault Refusal :=
  match v with
  | none => .fault (.noValue r)
  | some x => k x

/-- What an operand register of `ADDR_W` bits holds after a write of `v` (R8; log 22). -/
def operandValue (c : Config) (v : Nat) : Nat := v % 2 ^ c.addrW

/-- The number of offsets of TB: no transfer is longer (R52), and a length has `ADDR_W` bits (R54; log 7). -/
def tbSize (c : Config) : Nat := max (2 ^ c.addrW) c.blockLenOp.toNat

/-- `wire_addr(addr)` before it is narrowed (R53): the block index for a high-capacity card, else the byte
offset. -/
def wireAddr (cap : CapClass) (blockLen : Word) (addr : Nat) : Nat :=
  match cap with
  | .high => addr / blockLen.toNat
  | .standard => addr

/-- The 32-bit argument a wire address gives a command, "only if it fits": R54 says so of the high-capacity
quotient; DEDUCED for a standard-capacity address (R9, R73; log 22). -/
def wireArg (cap : CapClass) (blockLen : Word) (addr : Nat) : Option Word :=
  if wireAddr cap blockLen addr < 2 ^ 32 then some (BitVec.ofNat 32 (wireAddr cap blockLen addr)) else none

/-- `v % BLOCK_LEN = 0` (R61). -/
def aligned (blockLen : Word) (v : Nat) : Bool := v % blockLen.toNat == 0

/-- The number of blocks of a multi-block transfer, `REQ_LEN / BLOCK_LEN` (R228, R234). -/
def blockCount (blockLen : Word) (len : Nat) : Nat := len / blockLen.toNat

/-- `harg` of step 4 (R177): bit 30 set when the generation is v2+. -/
def opCondArg : Generation → Word
  | .v2 => hcsArg
  | .legacy => 0

/-- The offset in TB of a transfer's current block, `j * BL` (R228, R234). -/
def Xfer.offset (x : Xfer) (blockLen : Word) : Nat := x.block * blockLen.toNat

/-- The transfer of a single-block operation. -/
def Xfer.single : Xfer := ⟨false, 0, 1⟩

/-- The transfer of a multi-block operation of `n` blocks, at its first block. -/
def Xfer.ofCount (n : Nat) : Xfer := ⟨true, 0, n⟩

/-- The transfer at its next block. -/
def Xfer.next (x : Xfer) : Xfer := { x with block := x.block + 1 }

/-- Whether a block is left at the transfer's current index. -/
def Xfer.hasBlock (x : Xfer) : Bool := decide (x.block < x.count)

end Sys2Proof.Machine
end

