-- ==== Sys2Proof/Machine/Ops.lean ====
section
/-! DEFINITION. The named operations: the transfer buffer, the bus port, issuing a command, the end of an
operation (what R268 calls "trap entry" in this block), and the moves between positions. -/

namespace Sys2Proof.Machine

/-! ## The transfer buffer (R52) -/

/-- The canonical form of TB: offsets strictly rising (R52). A listed byte holds a value and an unlisted one
holds none, so equal buffers are equal lists. -/
abbrev Mem.wf (m : List Host.Cell) : Prop := m.Pairwise (fun p q => p.1 < q.1)

/-- One byte of TB; an unlisted byte holds no value (R301). -/
def Mem.read : List Host.Cell → Nat → Option Byte
  | [], _ => none
  | (k, b) :: m, a => if k = a then some b else Mem.read m a

/-- `MemRead(a, n)` (R52): the bytes, if each holds a value. -/
def Mem.readRange (m : List Host.Cell) : Nat → Nat → Option (List Byte)
  | _, 0 => some []
  | a, n + 1 =>
    match Mem.read m a, Mem.readRange m (a + 1) n with
    | some b, some bs => some (b :: bs)
    | _, _ => none

/-- Bytes at consecutive offsets, as cells. -/
def Mem.cells : Nat → List Byte → List Host.Cell
  | _, [] => []
  | a, b :: bs => (a, b) :: Mem.cells (a + 1) bs

/-- `MemWrite(a, n, v)` (R52): the cells below and above the written range stay. -/
def Mem.write (m : List Host.Cell) (a : Nat) (bs : List Byte) : List Host.Cell :=
  m.filter (fun p => decide (p.1 < a)) ++ Mem.cells a bs ++ m.filter (fun p => decide (a + bs.length ≤ p.1))

/-! ## The bus port (R286) -/

/-- `Send` of each byte in order, one event each (R11, R132). -/
def sendAll (bs : List Byte) (s : State) : State := { s with bus := s.bus ++ bs.map .send }

/-- `Recv()` (R11): the card's next answer, which is consumed (R63); a free value when none is listed (log 2). -/
def recv (s : State) : Byte × State :=
  match s.cardIn with
  | b :: rest => (b, { s with cardIn := rest, bus := s.bus ++ [.recv b] })
  | [] => (Config.cardByte s.draws,
      { s with draws := s.draws + 1, bus := s.bus ++ [.recv (Config.cardByte s.draws)] })

/-- `n` bytes "read unconditionally by count" (R78). -/
def recvN : Nat → State → List Byte × State
  | 0, s => ([], s)
  | n + 1, s =>
    let (b, s1) := recv s
    let (bs, s2) := recvN n s1
    (b :: bs, s2)

/-- A bounded poll for the first byte that is not `IDLE_FILL` (R133): at most `n` attempts. -/
def pollNonIdle : Nat → State → Option Byte × State
  | 0, s => (none, s)
  | n + 1, s =>
    let (b, s1) := recv s
    if b = s.cfg.idleFill then pollNonIdle n s1 else (some b, s1)

/-! ## Issuing a command (R133, R136) -/

/-- What `Issue` gives: a response (its first byte and the rest), or `ResponseTimeout`. -/
inductive Issued
  | timeout
  | response (first : Byte) (rest : List Byte)
  deriving DecidableEq, Repr

/-- `Issue(idx, arg)` (R133): frame and send the packet, poll for the first response byte, read the rest by count. -/
def issue (k : Cmd) (arg : Word) (s : State) : Issued × State :=
  let p := frame (s.cfg.idx k) arg
  match pollNonIdle s.cfg.respPollMax (sendAll p { s with pkt := p }) with
  | (none, s1) => (.timeout, s1)
  | (some b, s1) =>
    let (bs, s2) := recvN (respLen k - 1) s1
    (.response b bs, { s2 with resp := b :: bs })

/-- What `IssueApp` gives (R136). -/
inductive AppIssued
  | timeout
  | prefixFail (p : Byte)
  | response (first : Byte)
  deriving DecidableEq, Repr

/-- `IssueApp(idx, arg)` (R136): the target command is sent only after a prefix response that `prefix_ok` accepts. -/
def issueApp (k : Cmd) (arg : Word) (s : State) : AppIssued × State :=
  match issue .appPrefix 0 s with
  | (.timeout, s1) => (.timeout, s1)
  | (.response p _, s1) =>
    if r1PrefixOk p then
      match issue k arg s1 with
      | (.timeout, s2) => (.timeout, s2)
      | (.response r _, s2) => (.response r, s2)
    else (.prefixFail p, s1)

/-! ## Positions -/

/-- The procedure goes on at a position that issues no command. -/
def setPos (p : Pos) (s : State) : State := { s with opState := .busy p }

/-- The procedure goes on at a position that issues a command: its packet is framed into `PKT` (R131, R34). -/
def goCmd (p : Pos) (k : Cmd) (arg : Word) (s : State) : State :=
  { s with opState := .busy p, pkt := frame (s.cfg.idx k) arg }

/-! ## The end of an operation (R268) -/

/-- The `on raise` blocks an operation may have. -/
inductive OpClass
  /-- `INIT` (R184). -/
  | negotiation
  /-- `READ_BLOCK`, `WRITE_BLOCK`, `READ_BLOCKS`, `WRITE_BLOCKS` (R212). -/
  | blockIO
  /-- `READ_STATUS`, which has none (R160). -/
  | status
  deriving DecidableEq, Repr

/-- The `on raise` block (R184, R212). -/
def onRaise (o : OpClass) (s : State) : State :=
  match o with
  | .negotiation => { s with negState := .failed }
  | .blockIO => { s with sessionValid := false }
  | .status => s

/-- The end of an operation after its `Select()` ("trap entry", R268), with an error (`some e`) or with
success: the `on raise` block, `Deselect()`, `RESULT_KIND`, then `OP_STATE` IDLE. Nothing is saved but the
code (R262); `PKT` and `RESP` hold no value afterwards (R34, R35). There is no return operation (R269). -/
def endOp (o : OpClass) (r : Option ErrorKind) (s : State) : State :=
  let s1 := match r with
    | none => s
    | some _ => onRaise o s
  { s1 with
    bus := s1.bus ++ [.deselect]
    resultKind := some (resultCode r)
    opState := .idle
    pkt := []
    resp := [] }

/-- The end of an operation that made no bus event: `RESULT_KIND`, then `OP_STATE` IDLE (R211, R250, R268). -/
def endNoBus (r : Option ErrorKind) (s : State) : State :=
  { s with resultKind := some (resultCode r), opState := .idle }

/-- The beginning of an operation's bus traffic (R154, R155). -/
def select (s : State) : State := { s with bus := s.bus ++ [.select] }

/-- A host operation runs only while no other does (R310). -/
def whenIdle (s : State) (k : Host.Outcome State Fault Refusal) : Host.Outcome State Fault Refusal :=
  match s.opState with
  | .idle => k
  | .busy _ => .refused .startWhileBusy

end Sys2Proof.Machine
end

