-- ==== Sys2Proof/Machine/Accessors.lean ====
section
/-! DEFINITION. The session accessors (spec/44_session_access.md R250-R254) and `READ_STATUS` with its
command (spec/41_command_framer.md R144, R160). -/

namespace Sys2Proof.Machine

/-- The end of an accessor: `RESULT_VALUE`, then `RESULT_KIND` 0 (R250). -/
def returnValue (v : Half) (s : State) : State := endNoBus none { s with resultValue := some v }

/-- `GET_IS_MMC` (R251, R254). -/
def execGetIsMmc (s : State) : Host.Outcome State Fault Refusal :=
  whenIdle s (withReg .family s.family fun f => .next (returnValue (f.code.setWidth 16) s))

/-- `GET_BLOCK_LEN` (R252, R254). -/
def execGetBlockLen (s : State) : Host.Outcome State Fault Refusal :=
  whenIdle s (withReg .blockLen s.blockLen fun l => .next (returnValue (l.extractLsb' 0 16) s))

/-- `GET_IS_HC` (R253, R254). -/
def execGetIsHc (s : State) : Host.Outcome State Fault Refusal :=
  whenIdle s (withReg .capClass s.capClass fun c => .next (returnValue (c.code.setWidth 16) s))

/-- `READ_STATUS` up to its command (R160): it needs no session (R306). -/
def execReadStatus (s : State) : Host.Outcome State Fault Refusal :=
  whenIdle s (.next (goCmd .sendStatus .sendStatus 0 (select s)))

/-- The rest of `READ_STATUS` (R160): the two bytes uninterpreted, or `ResponseTimeout`. -/
def finishReadStatus : Issued × State → State
  | (.timeout, s) => endOp .status (some .responseTimeout) s
  | (.response r bs, s) =>
    endOp .status none { s with resultValue := some ((ofBe (r :: bs)).extractLsb' 0 16) }

/-- `CMD_SEND_STATUS` (R144), the command of `READ_STATUS`. -/
def execCmdSendStatus (arg : Word) (s : State) : Host.Outcome State Fault Refusal :=
  match s.opState with
  | .busy .sendStatus => .next (finishReadStatus (issue .sendStatus arg s))
  | _ => .refused .outOfPlace

end Sys2Proof.Machine
end

