-- ==== Sys2Proof/Machine/BlockIO.lean ====
section
/-! DEFINITION. The block I/O sequencer (spec/43_block_io.md R210-R241): the four block operations, their
commands, and the tokens. -/

namespace Sys2Proof.Machine

/-- The wire address of a checked `REQ_ADDR` (R53), or the refusal of one that does not fit the argument
(R54; log 22). -/
def toCard (bl : Word) (addr : Nat) (s : State) (k : Word → State) : Host.Outcome State Fault Refusal :=
  withReg .capClass s.capClass fun cap =>
    match wireArg cap bl addr with
    | some wa => .next (k wa)
    | none => .refused .addressTooWide

/-- What a block operation needs before any bus traffic: a session (R210), the block length, an aligned
address, and for a multi-block operation an aligned length (R211, R61), an address the card can be sent
(R54). `k` gets the wire address and the transfer. -/
def blockStart (multi : Bool) (s : State) (k : Word → Xfer → State) : Host.Outcome State Fault Refusal :=
  if s.sessionValid = false then .refused .noSession
  else withReg .blockLen s.blockLen fun bl =>
    withReg .reqAddr s.reqAddr fun addr =>
      if aligned bl addr = false then .next (endNoBus (some .addressMisaligned) s)
      else if multi then
        withReg .reqLen s.reqLen fun len =>
          if aligned bl len = false then .next (endNoBus (some .dataLengthNotBlockMultiple) s)
          else toCard bl addr s (k · (.ofCount (blockCount bl len)))
      else toCard bl addr s (k · .single)

/-- `READ_BLOCK` up to its command (R215). -/
def execReadBlock (s : State) : Host.Outcome State Fault Refusal :=
  whenIdle s (blockStart false s fun wa x => goCmd (.readCmd x) .readSingle wa (select s))

/-- `WRITE_BLOCK` up to its command (R220). -/
def execWriteBlock (s : State) : Host.Outcome State Fault Refusal :=
  whenIdle s (blockStart false s fun wa x => goCmd (.writeCmd x) .writeSingle wa (select s))

/-- `READ_BLOCKS` up to its command (R228). -/
def execReadBlocks (s : State) : Host.Outcome State Fault Refusal :=
  whenIdle s (blockStart true s fun wa x => goCmd (.readCmd x) .readMulti wa (select s))

/-- `WRITE_BLOCKS` up to its command (R234). -/
def execWriteBlocks (s : State) : Host.Outcome State Fault Refusal :=
  whenIdle s (blockStart true s fun wa x => goCmd (.writeCmd x) .writeMulti wa (select s))

/-- The stop sequence of a multi-block read begins (R229): the stop command is issued next. -/
def goReadStop (err : Option ErrorKind) (s : State) : State :=
  goCmd (.readStop err) .stopTransmission 0 s

/-- The read goes on at its current block, or, when none is left, a multi-block read stops and a single-block
read ends (R215, R228). -/
def readNext (x : Xfer) (s : State) : State :=
  if x.hasBlock then setPos (.readToken x 1) s
  else if x.multi then goReadStop none s
  else endOp .blockIO none s

/-- A block of a read failed (R228): a multi-block read still performs the stop sequence. -/
def readFail (x : Xfer) (e : ErrorKind) (s : State) : State :=
  if x.multi then goReadStop (some e) s else endOp .blockIO (some e) s

/-- The write goes on at its current block, or stops or ends (R220, R234). -/
def writeNext (x : Xfer) (s : State) : State :=
  if x.hasBlock then setPos (.writeFrame x) s
  else if x.multi then setPos (.writeStop none) s
  else endOp .blockIO none s

/-- A block of a write failed (R234): a multi-block write still performs the stop sequence. -/
def writeFail (x : Xfer) (e : ErrorKind) (s : State) : State :=
  if x.multi then setPos (.writeStop (some e)) s else endOp .blockIO (some e) s

/-- The response of a block command (R213): a failure ends the operation with no stop sequence (R230). -/
def blockCmdResp (go : State → State) : Issued × State → State
  | (.timeout, s) => endOp .blockIO (some .responseTimeout) s
  | (.response r _, s) =>
    match checkCmdResp r with
    | none => go s
    | some e => endOp .blockIO (some e) s

/-- `CMD_READ_SINGLE` (R146, R215). -/
def execCmdReadSingle (arg : Word) (s : State) : Host.Outcome State Fault Refusal :=
  match s.opState with
  | .busy (.readCmd ⟨false, j, n⟩) => .next (blockCmdResp (readNext ⟨false, j, n⟩) (issue .readSingle arg s))
  | _ => .refused .outOfPlace

/-- `CMD_READ_MULTI` (R147, R228). -/
def execCmdReadMulti (arg : Word) (s : State) : Host.Outcome State Fault Refusal :=
  match s.opState with
  | .busy (.readCmd ⟨true, j, n⟩) => .next (blockCmdResp (readNext ⟨true, j, n⟩) (issue .readMulti arg s))
  | _ => .refused .outOfPlace

/-- `CMD_WRITE_SINGLE` (R148, R220). -/
def execCmdWriteSingle (arg : Word) (s : State) : Host.Outcome State Fault Refusal :=
  match s.opState with
  | .busy (.writeCmd ⟨false, j, n⟩) => .next (blockCmdResp (writeNext ⟨false, j, n⟩) (issue .writeSingle arg s))
  | _ => .refused .outOfPlace

/-- `CMD_WRITE_MULTI` (R149, R234). -/
def execCmdWriteMulti (arg : Word) (s : State) : Host.Outcome State Fault Refusal :=
  match s.opState with
  | .busy (.writeCmd ⟨true, j, n⟩) => .next (blockCmdResp (writeNext ⟨true, j, n⟩) (issue .writeMulti arg s))
  | _ => .refused .outOfPlace

/-- `ReadStop()` after its `Issue` (R229): the response is not examined, the busy-wait runs even after a
timeout, and the block error wins over the timeout (R228). -/
def readStopIssued (err : Option ErrorKind) : Issued × State → State
  | (.timeout, s) => setPos (.readStopBusy (err <|> some .responseTimeout)) s
  | (.response _ _, s) => setPos (.readStopBusy err) s

/-- `CMD_STOP_TRANSMISSION` (R143, R229). -/
def execCmdStopTransmission (arg : Word) (s : State) : Host.Outcome State Fault Refusal :=
  match s.opState with
  | .busy (.readStop err) => .next (readStopIssued err (issue .stopTransmission arg s))
  | _ => .refused .outOfPlace

/-! ## Receiving a block (R214) -/

/-- After the start token (R214): the payload into TB, the CRC16, its check (R218). -/
def recvPayload (x : Xfer) (blockLen : Word) (s : State) : State :=
  let (p, s1) := recvN blockLen.toNat s
  let (hi, s2) := recv s1
  let (lo, s3) := recv s2
  let s4 := { s3 with tb := Mem.write s3.tb (x.offset blockLen) p }
  if crc16Check p hi lo then readNext x.next s4 else readFail x .blockCrcInvalid s4

/-- The start token was received (R214). -/
def startReceived (x : Xfer) (s : State) : Host.Outcome State Fault Refusal :=
  withReg .blockLen s.blockLen fun bl => .next (recvPayload x bl s)

/-- Attempt `k` of the token poll found neither token (R214): the next attempt, or `ResponseTimeout` (R216). -/
def tokenSkipped (x : Xfer) (k : Nat) (s : State) : State :=
  if k < s.cfg.tokenPollMax then setPos (.readToken x (k + 1)) s else readFail x .responseTimeout s

/-- `ERROR_TOKEN` (R92, R217): received in a token poll, it ends the block. -/
def execErrorToken (b : Byte) (s : State) : Host.Outcome State Fault Refusal :=
  match s.opState with
  | .busy (.readToken x _) => .next (readFail x (decodeErrorToken b) s)
  | _ => .refused .outOfPlace

/-! ## Sending a block (R221) -/

/-- The frame of a block (R85): token, payload, CRC16 (R118). -/
def sendFrame (tok : Byte) (x : Xfer) (s : State) : Host.Outcome State Fault Refusal :=
  withReg .blockLen s.blockLen fun bl =>
    withReg .tb (Mem.readRange s.tb (x.offset bl) bl.toNat) fun p =>
      .next (setPos (.dataResp x 1) (sendAll (tok :: p ++ crc16Gen p) s))

/-- `TOK_START_SINGLE` (R88): awaited by `READ_BLOCK` (R215), sent by `WRITE_BLOCK` (R220). -/
def execTokStartSingle (s : State) : Host.Outcome State Fault Refusal :=
  match s.opState with
  | .busy (.readToken ⟨false, j, n⟩ _) => startReceived ⟨false, j, n⟩ s
  | .busy (.writeFrame ⟨false, j, n⟩) => sendFrame s.cfg.tokStartSingle ⟨false, j, n⟩ s
  | _ => .refused .outOfPlace

/-- `TOK_START_MULTI_RD` (R90): awaited by `READ_BLOCKS` before each payload (R228). -/
def execTokStartMultiRd (s : State) : Host.Outcome State Fault Refusal :=
  match s.opState with
  | .busy (.readToken ⟨true, j, n⟩ _) => startReceived ⟨true, j, n⟩ s
  | _ => .refused .outOfPlace

/-- `TOK_START_MULTI_WR` (R89): sent by `WRITE_BLOCKS` before each payload (R234). -/
def execTokStartMultiWr (s : State) : Host.Outcome State Fault Refusal :=
  match s.opState with
  | .busy (.writeFrame ⟨true, j, n⟩) => sendFrame s.cfg.tokStartMultiWr ⟨true, j, n⟩ s
  | _ => .refused .outOfPlace

/-- `TOK_STOP_MULTI_WR` (R91, R235): sent once at the end of `WRITE_BLOCKS`, then the busy-wait. -/
def execTokStopMultiWr (s : State) : Host.Outcome State Fault Refusal :=
  match s.opState with
  | .busy (.writeStop err) => .next (setPos (.writeStopBusy err) (sendAll [s.cfg.tokStopMultiWr] s))
  | _ => .refused .outOfPlace

/-- Attempt `k` of the data-response poll (R221): `IDLE_FILL` is skipped (R223), the first other byte is the
token, and the busy-wait comes before its decode. -/
def pollDataResp (x : Xfer) (k : Nat) (s : State) : State :=
  let (b, s1) := recv s
  if b ≠ s.cfg.idleFill then setPos (.writeBusy x b) s1
  else if k < s1.cfg.drespPollMax then setPos (.dataResp x (k + 1)) s1
  else writeFail x .responseTimeout s1

/-- One `Recv` of a busy-wait (R139): it ends at `IDLE_FILL` and has no bound. -/
def busyWait (done : State → State) (s : State) : State :=
  let (b, s1) := recv s
  if b = s.cfg.idleFill then done s1 else s1

/-- `DATA_RESP_ACCEPTED` (R93, R222): the write goes on. -/
def execDataRespAccepted (s : State) : Host.Outcome State Fault Refusal :=
  match s.opState with
  | .busy (.writeVerdict x _) => .next (writeNext x.next s)
  | _ => .refused .outOfPlace

/-- `DATA_RESP_CRC_REJECTED` (R93, R222). -/
def execDataRespCrcRejected (s : State) : Host.Outcome State Fault Refusal :=
  match s.opState with
  | .busy (.writeVerdict x _) => .next (writeFail x .blockCrcInvalid s)
  | _ => .refused .outOfPlace

/-- `DATA_RESP_WRITE_REJECTED` (R93, R222). -/
def execDataRespWriteRejected (s : State) : Host.Outcome State Fault Refusal :=
  match s.opState with
  | .busy (.writeVerdict x _) => .next (writeFail x .cardControllerFailure s)
  | _ => .refused .outOfPlace

end Sys2Proof.Machine
end

