-- ==== Sys2Proof/Machine/Negotiation.lean ====
section
/-! DEFINITION. `INIT` and its commands (spec/42_negotiation.md R170-R186). Each command's meaning is its
`Issue` (R133) and the parse of its response by the rule of the step that sends it. -/

namespace Sys2Proof.Machine

/-- `raise e` inside `INIT` (R184): `NEG_STATE` Failed, `Deselect()`, the code. -/
def raiseInit (e : ErrorKind) (s : State) : State := endOp .negotiation (some e) s

/-- `Start()` (R171), and `Select()` (R170). -/
def initStart (s : State) : State :=
  select { s with
    sessionValid := false
    family := none
    generation := none
    capClass := none
    blockLen := none
    negState := .powerOn
    clockMode := .slow
    bus := s.bus ++ [.setClock s.cfg.clkSlow] }

/-- `INIT` up to its first command (R170, R171): allowed in any session and negotiation state. -/
def execInit (s : State) : Host.Outcome State Fault Refusal :=
  whenIdle s (.next (goCmd .reset .reset 0 (initStart s)))

/-- Step 1 (R172): only the idle bit is tested. -/
def step1Reset : Issued × State → State
  | (.timeout, s) => raiseInit .responseTimeout s
  | (.response r _, s) =>
    if r1Idle r then goCmd .ifCond .ifCond (ifCondArg s.cfg) { s with negState := .idle }
    else raiseInit .resetFailed s

/-- `CMD_RESET` (R140, R172). -/
def execCmdReset (arg : Word) (s : State) : Host.Outcome State Fault Refusal :=
  match s.opState with
  | .busy .reset => .next (step1Reset (issue .reset arg s))
  | _ => .refused .outOfPlace

/-- Step 2 passes (R174): step 3 issues the OCR read (R175). -/
def step2Pass (s : State) : State :=
  goCmd .ocrFamily .readOcr 0 { s with negState := .voltageChecked }

/-- Step 2 (R173, R174): the illegal bit decides the generation; a v2+ card's echo is validated, the pattern
before the voltage code; bits 31:12 are not examined. -/
def step2Voltage : Issued × State → State
  | (.timeout, s) => raiseInit .responseTimeout s
  | (.response r bs, s) =>
    if r1Illegal r then step2Pass { s with generation := some .legacy }
    else if (ofBe bs).extractLsb' 0 8 ≠ s.cfg.checkPattern then
      raiseInit .checkPatternInvalid { s with generation := some .v2 }
    else if (ofBe bs).extractLsb' 8 4 ≠ s.cfg.vhsCode then
      raiseInit .unsupportedVoltage { s with generation := some .v2 }
    else step2Pass { s with generation := some .v2 }

/-- `CMD_IF_COND` (R142, R173, R174). -/
def execCmdIfCond (arg : Word) (s : State) : Host.Outcome State Fault Refusal :=
  match s.opState with
  | .busy .ifCond => .next (step2Voltage (issue .ifCond arg s))
  | _ => .refused .outOfPlace

/-- Step 3 passes (R176). -/
def step3Pass (s : State) : State := setPos .step4 { s with negState := .familyKnown }

/-- Step 3 (R175, R176): the illegal bit decides the family; an SD card must declare the voltage window. -/
def step3Family : Issued × State → State
  | (.timeout, s) => raiseInit .responseTimeout s
  | (.response r bs, s) =>
    if r1Illegal r then step3Pass { s with family := some .mmc }
    else if ocrVoltageWindow s.cfg (ofBe bs) then step3Pass { s with family := some .sd }
    else raiseInit .unsupportedVoltage { s with family := some .sd }

/-- Step 5 passes (R180, R181). -/
def step5Pass (cap : CapClass) (s : State) : State :=
  setPos .step6 { s with capClass := some cap, negState := .capacityClassified }

/-- One attempt of the step-5 loop (R180): the illegal bit first, then the power-up-complete bit. -/
def step5Ocr (k : Nat) : Issued × State → State
  | (.timeout, s) => raiseInit .responseTimeout s
  | (.response r bs, s) =>
    if r1Illegal r then raiseInit .unknownProtocolFault s
    else if ocrPwrUp (ofBe bs) then step5Pass (ocrCapClass (ofBe bs)) s
    else if k < s.cfg.ocrPollMax then goCmd (.ocrCapacity (k + 1)) .readOcr 0 s
    else raiseInit .initTimeout s

/-- `CMD_READ_OCR` (R152): in step 3 (R176) and in the step-5 loop (R180). -/
def execCmdReadOcr (arg : Word) (s : State) : Host.Outcome State Fault Refusal :=
  match s.opState with
  | .busy .ocrFamily => .next (step3Family (issue .readOcr arg s))
  | .busy (.ocrCapacity k) => .next (step5Ocr k (issue .readOcr arg s))
  | _ => .refused .outOfPlace

/-- Step 4 passes (R178): step 5 begins. -/
def step4Pass (s : State) : State := setPos .step5 { s with negState := .negotiated }

/-- Which loop step 4 begins with (R177, R178): the SD loop for an SD card, its argument computed once, the
fallback loop for an MMC card. -/
def beginStep4 (s : State) : Host.Outcome State Fault Refusal :=
  withReg .family s.family fun
    | .mmc => .next (goCmd (.opCond 1) .sendOpCond 0 s)
    | .sd => withReg .generation s.generation fun g =>
        .next (goCmd (.appPrefix (opCondArg g) 1) .appPrefix 0 s)

/-- A failed prefix in the SD loop (R177). -/
def prefixFailed (p : Byte) (s : State) : State :=
  if r1Illegal p then raiseInit .notASupportedCard s else raiseInit .unknownProtocolFault s

/-- The prefix response of an SD-loop attempt (R136, R177). -/
def step4Prefix (harg : Word) (k : Nat) : Issued × State → State
  | (.timeout, s) => raiseInit .responseTimeout s
  | (.response p _, s) =>
    if r1PrefixOk p then goCmd (.appOpCond harg k) .appOpCond harg s else prefixFailed p s

/-- `CMD_APP_PREFIX` (R151, R136). -/
def execCmdAppPrefix (arg : Word) (s : State) : Host.Outcome State Fault Refusal :=
  match s.opState with
  | .busy (.appPrefix harg k) => .next (step4Prefix harg k (issue .appPrefix arg s))
  | _ => .refused .outOfPlace

/-- The target response `r` of SD-loop attempt `k` (R177): the illegal bit first; the loop exits when the busy
bit clears; after `INIT_POLL_MAX` attempts the fallback loop runs (R178). -/
def step4Target (harg : Word) (k : Nat) (r : Byte) (s : State) : State :=
  if r1Illegal r then raiseInit .notASupportedCard s
  else if r1Idle r = false then step4Pass s
  else if k < s.cfg.initPollMax then goCmd (.appPrefix harg (k + 1)) .appPrefix 0 s
  else goCmd (.opCond 1) .sendOpCond 0 s

/-- The target of an SD-loop attempt after its `Issue` (R177). -/
def step4AppOpCond (harg : Word) (k : Nat) : Issued × State → State
  | (.timeout, s) => raiseInit .responseTimeout s
  | (.response r _, s) => step4Target harg k r s

/-- `CMD_APP_OP_COND` (R150, R177). -/
def execCmdAppOpCond (arg : Word) (s : State) : Host.Outcome State Fault Refusal :=
  match s.opState with
  | .busy (.appOpCond harg k) => .next (step4AppOpCond harg k (issue .appOpCond arg s))
  | _ => .refused .outOfPlace

/-- One whole attempt of the SD loop after its `IssueApp` (R177). -/
def step4Attempt (harg : Word) (k : Nat) : AppIssued × State → State
  | (.timeout, s) => raiseInit .responseTimeout s
  | (.prefixFail p, s) => prefixFailed p s
  | (.response r, s) => step4Target harg k r s

/-- `ACMD41` (R101, R153): `IssueApp(CMD_APP_OP_COND, arg)`, one whole attempt of the SD loop (R279). -/
def execAcmd41 (arg : Word) (s : State) : Host.Outcome State Fault Refusal :=
  match s.opState with
  | .busy (.appPrefix harg k) => .next (step4Attempt harg k (issueApp .appOpCond arg s))
  | _ => .refused .outOfPlace

/-- One attempt of the fallback loop (R178). -/
def step4Fallback (k : Nat) : Issued × State → State
  | (.timeout, s) => raiseInit .responseTimeout s
  | (.response r _, s) =>
    if r1Illegal r then raiseInit .notASupportedCard s
    else if r1Idle r = false then step4Pass s
    else if k < s.cfg.initPollMax then goCmd (.opCond (k + 1)) .sendOpCond 0 s
    else raiseInit .initTimeout s

/-- `CMD_SEND_OP_COND` (R141, R178). -/
def execCmdSendOpCond (arg : Word) (s : State) : Host.Outcome State Fault Refusal :=
  match s.opState with
  | .busy (.opCond k) => .next (step4Fallback k (issue .sendOpCond arg s))
  | _ => .refused .outOfPlace

/-- Step 5 begins (R180, R181): the OCR loop for a v2+ card, no command for a legacy card. -/
def beginStep5 (s : State) : Host.Outcome State Fault Refusal :=
  withReg .generation s.generation fun
    | .v2 => .next (goCmd (.ocrCapacity 1) .readOcr 0 s)
    | .legacy => .next (step5Pass .standard s)

/-- The end of step 6 and of `INIT` (R182, R183): block length, fast clock, Ready, the session. -/
def initReady (s : State) : State :=
  endOp .negotiation none { s with
    blockLen := some s.cfg.blockLenOp
    clockMode := .fast
    bus := s.bus ++ [.setClock s.cfg.clkFast]
    negState := .ready
    sessionValid := true }

/-- Step 6 begins (R182): the set-block-length command for a standard-capacity card only. -/
def beginStep6 (s : State) : Host.Outcome State Fault Refusal :=
  withReg .capClass s.capClass fun
    | .standard => .next (goCmd .setBlockLen .setBlockLen s.cfg.blockLenOp s)
    | .high => .next (initReady s)

/-- The response of the set-block-length command (R182): it must be 0x00. -/
def step6SetLen : Issued × State → State
  | (.timeout, s) => raiseInit .responseTimeout s
  | (.response r _, s) => if r1Ok r then initReady s else raiseInit .unknownProtocolFault s

/-- `CMD_SET_BLOCKLEN` (R145, R182). -/
def execCmdSetBlockLen (arg : Word) (s : State) : Host.Outcome State Fault Refusal :=
  match s.opState with
  | .busy .setBlockLen => .next (step6SetLen (issue .setBlockLen arg s))
  | _ => .refused .outOfPlace

end Sys2Proof.Machine
end

