-- ==== Sys2Proof/Machine/Reserved.lean ====
section
/-! DEFINITION. The reserved and out-of-scope host operation codes (spec/30_encoding.md R100): "refused: the
model gives it no meaning, performs no bus event and writes no register." -/

namespace Sys2Proof.Machine

/-- `REQ_OP` 0x0 (R100). -/
def execReserved0 (_s : State) : Host.Outcome State Fault Refusal := .refused (.reservedOp 0x0)

/-- `REQ_OP` 0xA (R100). -/
def execReservedA (_s : State) : Host.Outcome State Fault Refusal := .refused (.reservedOp 0xA)

/-- `REQ_OP` 0xB, `ERASE` (R7, R100). -/
def execEraseOutOfScope (_s : State) : Host.Outcome State Fault Refusal := .refused (.outOfScopeOp 0xB)

/-- `REQ_OP` 0xC, `GET_SIZE` (R7, R100). -/
def execGetSizeOutOfScope (_s : State) : Host.Outcome State Fault Refusal := .refused (.outOfScopeOp 0xC)

/-- `REQ_OP` 0xD (R100). -/
def execReservedD (_s : State) : Host.Outcome State Fault Refusal := .refused (.reservedOp 0xD)

/-- `REQ_OP` 0xE (R100). -/
def execReservedE (_s : State) : Host.Outcome State Fault Refusal := .refused (.reservedOp 0xE)

/-- `REQ_OP` 0xF (R100). -/
def execReservedF (_s : State) : Host.Outcome State Fault Refusal := .refused (.reservedOp 0xF)

end Sys2Proof.Machine
end

