-- ==== Sys2Proof/Machine/Dispatch.lean ====
section
/-! DEFINITION. One arm per instruction of the opcode table. -/

namespace Sys2Proof.Machine

def exec (i : Instr) (s : State) : Host.Outcome State Fault Refusal :=
  match i with
  | .reserved0 => Sys2Proof.Machine.execReserved0 s
  | .init => Sys2Proof.Machine.execInit s
  | .readBlock => Sys2Proof.Machine.execReadBlock s
  | .writeBlock => Sys2Proof.Machine.execWriteBlock s
  | .readBlocks => Sys2Proof.Machine.execReadBlocks s
  | .writeBlocks => Sys2Proof.Machine.execWriteBlocks s
  | .readStatus => Sys2Proof.Machine.execReadStatus s
  | .getIsMmc => Sys2Proof.Machine.execGetIsMmc s
  | .getBlockLen => Sys2Proof.Machine.execGetBlockLen s
  | .getIsHc => Sys2Proof.Machine.execGetIsHc s
  | .reservedA => Sys2Proof.Machine.execReservedA s
  | .eraseOutOfScope => Sys2Proof.Machine.execEraseOutOfScope s
  | .getSizeOutOfScope => Sys2Proof.Machine.execGetSizeOutOfScope s
  | .reservedD => Sys2Proof.Machine.execReservedD s
  | .reservedE => Sys2Proof.Machine.execReservedE s
  | .reservedF => Sys2Proof.Machine.execReservedF s
  | .cmdReset arg _ => Sys2Proof.Machine.execCmdReset arg s
  | .cmdSendOpCond arg _ => Sys2Proof.Machine.execCmdSendOpCond arg s
  | .cmdIfCond arg _ => Sys2Proof.Machine.execCmdIfCond arg s
  | .cmdStopTransmission arg _ => Sys2Proof.Machine.execCmdStopTransmission arg s
  | .cmdSendStatus arg _ => Sys2Proof.Machine.execCmdSendStatus arg s
  | .cmdSetBlockLen arg _ => Sys2Proof.Machine.execCmdSetBlockLen arg s
  | .cmdReadSingle arg _ => Sys2Proof.Machine.execCmdReadSingle arg s
  | .cmdReadMulti arg _ => Sys2Proof.Machine.execCmdReadMulti arg s
  | .cmdWriteSingle arg _ => Sys2Proof.Machine.execCmdWriteSingle arg s
  | .cmdWriteMulti arg _ => Sys2Proof.Machine.execCmdWriteMulti arg s
  | .cmdAppOpCond arg _ => Sys2Proof.Machine.execCmdAppOpCond arg s
  | .cmdAppPrefix arg _ => Sys2Proof.Machine.execCmdAppPrefix arg s
  | .cmdReadOcr arg _ => Sys2Proof.Machine.execCmdReadOcr arg s
  | .acmd41 arg _ => Sys2Proof.Machine.execAcmd41 arg s
  | .tokStartSingle => Sys2Proof.Machine.execTokStartSingle s
  | .tokStartMultiWr => Sys2Proof.Machine.execTokStartMultiWr s
  | .tokStartMultiRd => Sys2Proof.Machine.execTokStartMultiRd s
  | .tokStopMultiWr => Sys2Proof.Machine.execTokStopMultiWr s
  | .errorToken b => Sys2Proof.Machine.execErrorToken b s
  | .dataRespAccepted _ => Sys2Proof.Machine.execDataRespAccepted s
  | .dataRespCrcRejected _ => Sys2Proof.Machine.execDataRespCrcRejected s
  | .dataRespWriteRejected _ => Sys2Proof.Machine.execDataRespWriteRejected s

end Sys2Proof.Machine
end

