-- ==== Sys2Proof/Machine/Fetch.lean ====
section
/-! DEFINITION. What the machine does next: a host action, an instruction of the table, or a part of a
procedure that no row of the table names; and the host's actions themselves (spec/10_state.md R20, R21,
R30-R32; spec/70_reset_and_hazards.md R302, R310). -/

namespace Sys2Proof.Machine

/-- What comes next. -/
inductive Turn
  /-- The instruction `i` runs, on the state after its fetch. -/
  | run (i : Instr) (s : State)
  /-- Something no row of the table names happens. -/
  | other (o : Host.Outcome State Fault Refusal)

/-! ## The host (R30-R32) -/

/-- A host read returned `v` (R32). -/
def hostSees (v : HostVal) (s : State) : State := { s with hostOut := s.hostOut ++ [v] }

/-- A host action was refused while BUSY (R310): it is recorded and nothing else changes. -/
def recordRefused (a : HostAct) (s : State) : State := { s with refusedActs := s.refusedActs ++ [a] }

/-- The host reads `RESULT_KIND`, in either `OP_STATE` (R22, R302). -/
def hostReadKind (s : State) : Host.Outcome State Fault Refusal :=
  withReg .resultKind s.resultKind fun v => .next (hostSees (.resultKind v) s)

/-- The host reads `RESULT_VALUE`, in either `OP_STATE` (R22, R302). -/
def hostReadValue (s : State) : Host.Outcome State Fault Refusal :=
  withReg .resultValue s.resultValue fun v => .next (hostSees (.resultValue v) s)

/-- The host writes TB bytes (R30, R52). -/
def hostWriteTB (offset : Nat) (bytes : List Byte) (s : State) : Host.Outcome State Fault Refusal :=
  if offset + bytes.length ≤ tbSize s.cfg then .next { s with tb := Mem.write s.tb offset bytes }
  else .fault .outsideTB

/-- The host's next action while no operation runs (R30-R32). -/
def hostIdle (a : HostAct) (s : State) : Turn :=
  match a with
  | .writeOp v => .other (.next { s with reqOp := some v })
  | .writeAddr v => .other (.next { s with reqAddr := some (operandValue s.cfg v) })
  | .writeLen v => .other (.next { s with reqLen := some (operandValue s.cfg v) })
  | .writeTB o bs => .other (hostWriteTB o bs s)
  | .start =>
    match s.reqOp with
    | none => .other (.fault (.noValue .reqOp))
    | some op => .run (decodeHostOp op) s
  | .readOpState => .other (.next (hostSees (.opState s.opState.bit) s))
  | .readResultKind => .other (hostReadKind s)
  | .readResultValue => .other (hostReadValue s)
  | .readTB o => .other (withReg .tb (Mem.read s.tb o) fun b => .next (hostSees (.tbByte b) s))
  | .wait => .other (.next s)
  | .pause => .other (.next s)

/-- A host action while an operation runs: starts, writes and TB accesses are refused and the operation
goes on unchanged (R30, R22, R310); the result registers and `OP_STATE` can be read. -/
def hostBusy (a : HostAct) (s : State) : Host.Outcome State Fault Refusal :=
  match a with
  | .writeOp v => .next (recordRefused (.writeOp v) s)
  | .writeAddr v => .next (recordRefused (.writeAddr v) s)
  | .writeLen v => .next (recordRefused (.writeLen v) s)
  | .writeTB o bs => .next (recordRefused (.writeTB o bs) s)
  | .start => .next (recordRefused .start s)
  | .readOpState => .next (hostSees (.opState s.opState.bit) s)
  | .readResultKind => hostReadKind s
  | .readResultValue => hostReadValue s
  | .readTB o => .next (recordRefused (.readTB o) s)
  | .wait => .next s
  | .pause => .next s

/-! ## The running operation -/

/-- A command is issued: the packet in `PKT` is decoded and its command runs. -/
def fetchPacket (s : State) : Turn :=
  match decode s.cfg .packet s.pkt with
  | .ok i => .run i s
  | .error e => .other (.refused (.badPacket e))

/-- One attempt of the token poll (R214): the received byte is a start token, an error token, or skipped. -/
def fetchRxToken (x : Xfer) (k : Nat) (s : State) : Turn :=
  let (b, s1) := recv s
  match decode s1.cfg (.rxToken x.multi) [b] with
  | .ok i => .run i s1
  | .error _ => .other (.next (tokenSkipped x k s1))

/-- A token is sent: its byte, as the configuration gives it, is the instruction (R88, R89, R91). -/
def fetchTxToken (tok : Byte) (s : State) : Turn :=
  match decode s.cfg .txToken [tok] with
  | .ok i => .run i s
  | .error e => .other (.refused (.badPacket e))

/-- The data-response token after its busy-wait (R222): one of three rows, or "unknown". -/
def fetchDataResp (x : Xfer) (b : Byte) (s : State) : Turn :=
  match decode s.cfg .dataResp [b] with
  | .ok i => .run i s
  | .error _ => .other (.next (writeFail x .unknownProtocolFault s))

/-- The start token a write sends before a block (R220, R234). -/
def txStartToken (c : Config) (multi : Bool) : Byte := if multi then c.tokStartMultiWr else c.tokStartSingle

/-- What the running operation does at a position. -/
def fetchAt (p : Pos) (s : State) : Turn :=
  match p with
  | .reset => fetchPacket s
  | .ifCond => fetchPacket s
  | .ocrFamily => fetchPacket s
  | .step4 => .other (beginStep4 s)
  | .appPrefix _ _ => fetchPacket s
  | .appOpCond _ _ => fetchPacket s
  | .opCond _ => fetchPacket s
  | .step5 => .other (beginStep5 s)
  | .ocrCapacity _ => fetchPacket s
  | .step6 => .other (beginStep6 s)
  | .setBlockLen => fetchPacket s
  | .sendStatus => fetchPacket s
  | .readCmd _ => fetchPacket s
  | .readToken x k => fetchRxToken x k s
  | .writeCmd _ => fetchPacket s
  | .writeFrame x => fetchTxToken (txStartToken s.cfg x.multi) s
  | .dataResp x k => .other (.next (pollDataResp x k s))
  | .writeBusy x b => .other (.next (busyWait (setPos (.writeVerdict x b)) s))
  | .writeVerdict x b => fetchDataResp x b s
  | .readStop _ => fetchPacket s
  | .readStopBusy err => .other (.next (busyWait (endOp .blockIO err) s))
  | .writeStop _ => fetchTxToken s.cfg.tokStopMultiWr s
  | .writeStopBusy err => .other (.next (busyWait (endOp .blockIO err) s))

/-- What comes next. While IDLE the host's next action happens, or nothing (R21, R30). While BUSY the block
goes on, unless the host's next action is to be taken first (R310): `wait` lets the block run to the
end, `pause` lets it take one step (log 3). -/
def fetch (s : State) : Turn :=
  match s.opState, s.hostIn with
  | .idle, [] => .other (.next s)
  | .idle, a :: rest => hostIdle a { s with hostIn := rest }
  | .busy p, [] => fetchAt p s
  | .busy p, .wait :: _ => fetchAt p s
  | .busy p, .pause :: rest => fetchAt p { s with hostIn := rest }
  | .busy _, a :: rest => .other (hostBusy a { s with hostIn := rest })

/-! ## Placing an instruction where the next step fetches it (log 14) -/

/-- A position at which a packet's command is issued, for a packet placed from outside. -/
def placePos (i : Instr) : Pos :=
  match i with
  | .cmdReset _ _ => .reset
  | .cmdSendOpCond _ _ => .opCond 1
  | .cmdIfCond _ _ => .ifCond
  | .cmdStopTransmission _ _ => .readStop none
  | .cmdSendStatus _ _ => .sendStatus
  | .cmdSetBlockLen _ _ => .setBlockLen
  | .cmdReadSingle _ _ => .readCmd .single
  | .cmdReadMulti _ _ => .readCmd (.ofCount 1)
  | .cmdWriteSingle _ _ => .writeCmd .single
  | .cmdWriteMulti _ _ => .writeCmd (.ofCount 1)
  | .cmdAppOpCond a _ => .appOpCond a 1
  | .cmdAppPrefix _ _ => .appPrefix 0 1
  | .cmdReadOcr _ _ => .ocrFamily
  | .acmd41 a _ => .appPrefix a 1
  | _ => .reset

/-- A state in which the block, not the host, takes the next step at a position. -/
def placeAt (p : Pos) (s : State) : State := { s with opState := .busy p, hostIn := .wait :: s.hostIn }

/-- The block length the transfer of a placed start token needs (R214). -/
def placeBlockLen (s : State) : State := { s with blockLen := s.blockLen <|> some s.cfg.blockLenOp }

/-- Places an item of a kind, with its bytes, where the next step fetches it. -/
def placeItem (f : Fmt) (i : Instr) (bytes : List Byte) (s : State) : State :=
  match f with
  | .hostOp =>
    { s with
      opState := .idle
      reqOp := some ((bytes.headD 0).extractLsb' 0 4)
      hostIn := .start :: s.hostIn }
  | .packet => placeAt (placePos i) { s with pkt := bytes }
  | .rxToken multi =>
    placeAt (.readToken ⟨multi, 0, 1⟩ 1) (placeBlockLen { s with cardIn := bytes ++ s.cardIn })
  | .txToken =>
    match i with
    | .tokStopMultiWr => placeAt (.writeStop none) s
    | .tokStartMultiWr => placeAt (.writeFrame (.ofCount 1)) (placeBlockLen s)
    | _ => placeAt (.writeFrame .single) (placeBlockLen s)
  | .dataResp => placeAt (.writeVerdict .single (bytes.headD 0)) s

/-- Places the item a table word stands for under the machine's configuration; a word that stands for none is
placed as a packet, which the next step refuses. -/
def placeWord (s : State) (nbits w : Nat) : State :=
  match tableItem s.cfg nbits w with
  | some (f, i) => placeItem f i (tableBytes ((nbits + 7) / 8) w) s
  | none => placeAt .reset { s with pkt := tableBytes ((nbits + 7) / 8) w }

end Sys2Proof.Machine
end

