-- ==== Sys2Proof/Safety.lean ====
section
/-! DEFINITION. What claims are stated in terms of: a safe step, the bracket of port events, the classes of
positions, and the invariant of the block (spec/10_state.md R38 and what R20-R36 imply). -/

namespace Sys2Proof.Machine

/-- The step neither faults nor refuses. -/
def SafeStep (s : State) : Prop := ∃ t, step s = .next t

/-- What one port event does to chip select (R154, R286): bytes move only while it is asserted, and it is
neither asserted twice nor released twice. `none` is an event out of order. -/
def portStep (on : Bool) : BusEvent → Option Bool
  | .select => if on then none else some true
  | .deselect => if on then some false else none
  | .send _ => if on then some true else none
  | .recv _ => if on then some true else none
  | .setClock _ => some on

/-- Chip select after a record of port events, from released: `none` if one of them is out of order. -/
def portRun (bus : List BusEvent) : Option Bool := bus.foldlM portStep false

/-- `OP_STATE` = BUSY. -/
def OpState.isBusy : OpState → Bool
  | .idle => false
  | .busy _ => true

/-- The error kinds a block of a read can end with (R214, R217, R218), or a stop command's timeout (R229). -/
def readErrors : List ErrorKind :=
  [.responseTimeout, .addressOutOfBounds, .blockCrcInvalid, .cardEccFailure, .cardControllerFailure,
   .unknownProtocolFault]

/-- The error kinds a block of a write can end with (R221, R222). -/
def writeErrors : List ErrorKind :=
  [.responseTimeout, .blockCrcInvalid, .cardControllerFailure, .unknownProtocolFault]

/-- The positions of `INIT` (R170). -/
def Pos.inInit : Pos → Bool
  | .reset => true
  | .ifCond => true
  | .ocrFamily => true
  | .step4 => true
  | .appPrefix _ _ => true
  | .appOpCond _ _ => true
  | .opCond _ => true
  | .step5 => true
  | .ocrCapacity _ => true
  | .step6 => true
  | .setBlockLen => true
  | .sendStatus => false
  | .readCmd _ => false
  | .readToken _ _ => false
  | .writeCmd _ => false
  | .writeFrame _ => false
  | .dataResp _ _ => false
  | .writeBusy _ _ => false
  | .writeVerdict _ _ => false
  | .readStop _ => false
  | .readStopBusy _ => false
  | .writeStop _ => false
  | .writeStopBusy _ => false

/-- The positions of `WRITE_BLOCK` and `WRITE_BLOCKS` (R220, R234). -/
def Pos.inWrite : Pos → Bool
  | .writeCmd _ => true
  | .writeFrame _ => true
  | .dataResp _ _ => true
  | .writeBusy _ _ => true
  | .writeVerdict _ _ => true
  | .writeStop _ => true
  | .writeStopBusy _ => true
  | .reset => false
  | .ifCond => false
  | .ocrFamily => false
  | .step4 => false
  | .appPrefix _ _ => false
  | .appOpCond _ _ => false
  | .opCond _ => false
  | .step5 => false
  | .ocrCapacity _ => false
  | .step6 => false
  | .setBlockLen => false
  | .sendStatus => false
  | .readCmd _ => false
  | .readToken _ _ => false
  | .readStop _ => false
  | .readStopBusy _ => false

/-- The positions of `READ_BLOCK` and `READ_BLOCKS` (R215, R228). -/
def Pos.inRead : Pos → Bool
  | .readCmd _ => true
  | .readToken _ _ => true
  | .readStop _ => true
  | .readStopBusy _ => true
  | .writeCmd _ => false
  | .writeFrame _ => false
  | .dataResp _ _ => false
  | .writeBusy _ _ => false
  | .writeVerdict _ _ => false
  | .writeStop _ => false
  | .writeStopBusy _ => false
  | .reset => false
  | .ifCond => false
  | .ocrFamily => false
  | .step4 => false
  | .appPrefix _ _ => false
  | .appOpCond _ _ => false
  | .opCond _ => false
  | .step5 => false
  | .ocrCapacity _ => false
  | .step6 => false
  | .setBlockLen => false
  | .sendStatus => false

/-- What holds inside `INIT` at `NEG_STATE` `n` (R171, R184): no session, the clock slow, no block length. -/
def Negotiating (n : NegState) (s : State) : Prop :=
  s.negState = n ∧ s.sessionValid = false ∧ s.clockMode = .slow ∧ s.blockLen = none

/-- Which of `GENERATION`, `FAMILY`, `CAP_CLASS` hold a value: each is written once per `INIT` (R24-R26). -/
def Classified (generation family capClass : Bool) (s : State) : Prop :=
  s.generation.isSome = generation ∧ s.family.isSome = family ∧ s.capClass.isSome = capClass

/-- The number of bytes TB has for a transfer (R52): one block, or `REQ_LEN`. -/
def transferLen (x : Xfer) (s : State) : Nat :=
  if x.multi then s.reqLen.getD 0 else s.cfg.blockLenOp.toNat

/-- A transfer of a running block operation at one of its blocks: a session, and the block inside TB (R52). -/
def Transferring (x : Xfer) (s : State) : Prop :=
  s.sessionValid = true ∧ x.block < x.count ∧ x.count * s.cfg.blockLenOp.toNat ≤ transferLen x s
    ∧ (x.multi = false → x.count = 1)

/-- The command packet of a block operation (R38 c, R53): the wire address of an aligned `REQ_ADDR`. -/
def BlockCmdPacket (k : Cmd) (s : State) : Prop :=
  ∃ a cap, s.reqAddr = some a ∧ aligned s.cfg.blockLenOp a = true ∧ s.capClass = some cap
    ∧ (∃ wa, wireArg cap s.cfg.blockLenOp a = some wa ∧ s.pkt = frame (s.cfg.idx k) wa)

/-- A block operation at its command (R215, R220, R228, R234). -/
def BlockCommand (single multi : Cmd) (x : Xfer) (s : State) : Prop :=
  s.sessionValid = true ∧ x.block = 0 ∧ x.count * s.cfg.blockLenOp.toNat ≤ transferLen x s
    ∧ (x.multi = false → x.count = 1) ∧ BlockCmdPacket (if x.multi then multi else single) s

/-- What holds at each position of a running procedure: the `NEG_STATE` and session registers the steps
before it have written, the attempt counter in its range (R278), the packet about to be sent (R34). -/
def PosInv (s : State) : Pos → Prop
  | .reset => Negotiating .powerOn s ∧ Classified false false false s ∧ s.pkt = frame (s.cfg.idx .reset) 0
  | .ifCond => Negotiating .idle s ∧ Classified false false false s
      ∧ s.pkt = frame (s.cfg.idx .ifCond) (ifCondArg s.cfg)
  | .ocrFamily => Negotiating .voltageChecked s ∧ Classified true false false s
      ∧ s.pkt = frame (s.cfg.idx .readOcr) 0
  | .step4 => Negotiating .familyKnown s ∧ Classified true true false s
  | .appPrefix h k => Negotiating .familyKnown s ∧ Classified true true false s
      ∧ s.family = some .sd ∧ s.generation.map opCondArg = some h
      ∧ 1 ≤ k ∧ k ≤ s.cfg.initPollMax ∧ s.pkt = frame (s.cfg.idx .appPrefix) 0
  | .appOpCond h k => Negotiating .familyKnown s ∧ Classified true true false s
      ∧ s.family = some .sd ∧ s.generation.map opCondArg = some h
      ∧ 1 ≤ k ∧ k ≤ s.cfg.initPollMax ∧ s.pkt = frame (s.cfg.idx .appOpCond) h
  | .opCond k => Negotiating .familyKnown s ∧ Classified true true false s
      ∧ 1 ≤ k ∧ k ≤ s.cfg.initPollMax ∧ s.pkt = frame (s.cfg.idx .sendOpCond) 0
  | .step5 => Negotiating .negotiated s ∧ Classified true true false s
  | .ocrCapacity k => Negotiating .negotiated s ∧ Classified true true false s ∧ s.generation = some .v2
      ∧ 1 ≤ k ∧ k ≤ s.cfg.ocrPollMax ∧ s.pkt = frame (s.cfg.idx .readOcr) 0
  | .step6 => Negotiating .capacityClassified s ∧ Classified true true true s
  | .setBlockLen => Negotiating .capacityClassified s ∧ Classified true true true s
      ∧ s.capClass = some .standard ∧ s.pkt = frame (s.cfg.idx .setBlockLen) s.cfg.blockLenOp
  | .sendStatus => s.pkt = frame (s.cfg.idx .sendStatus) 0
  | .readCmd x => BlockCommand .readSingle .readMulti x s
  | .readToken x k => Transferring x s ∧ 1 ≤ k ∧ k ≤ s.cfg.tokenPollMax
  | .writeCmd x => BlockCommand .writeSingle .writeMulti x s
  | .writeFrame x => Transferring x s
  | .dataResp x k => Transferring x s ∧ 1 ≤ k ∧ k ≤ s.cfg.drespPollMax
  | .writeBusy x b => Transferring x s ∧ b ≠ s.cfg.idleFill
  | .writeVerdict x b => Transferring x s ∧ b ≠ s.cfg.idleFill
  | .readStop err => s.sessionValid = true ∧ (∀ e, err = some e → e ∈ readErrors)
      ∧ s.pkt = frame (s.cfg.idx .stopTransmission) 0
  | .readStopBusy err => s.sessionValid = true ∧ ∀ e, err = some e → e ∈ readErrors
  | .writeStop err => s.sessionValid = true ∧ ∀ e, err = some e → e ∈ writeErrors
  | .writeStopBusy err => s.sessionValid = true ∧ ∀ e, err = some e → e ∈ writeErrors

/-- The invariant the block keeps. -/
structure Inv (s : State) : Prop where
  /-- The configuration is valid (R8, R9, R72, R92). -/
  cfg : s.cfg.valid = true
  /-- R38 (a): what a valid session implies; `BLOCK_LEN_OP` of a valid configuration is 512. -/
  session : s.sessionValid = true → s.negState = .ready ∧ s.blockLen = some s.cfg.blockLenOp
    ∧ s.clockMode = .fast ∧ Classified true true true s
  /-- TB keeps its canonical form, inside its offsets (R52). -/
  tb : Mem.wf s.tb ∧ ∀ p ∈ s.tb, p.1 < tbSize s.cfg
  /-- The operand registers have `ADDR_W` bits (R8). -/
  operands : (∀ a ∈ s.reqAddr, a < 2 ^ s.cfg.addrW) ∧ ∀ l ∈ s.reqLen, l < 2 ^ s.cfg.addrW
  /-- R154: bytes move only inside a bracket, and chip select is asserted exactly while an operation runs. -/
  bracket : portRun s.bus = some s.opState.isBusy
  /-- R34, R35: `PKT` and `RESP` hold no value between operations. -/
  ephemeral : s.opState = .idle → s.pkt = [] ∧ s.resp = []
  /-- R261: the two kinds of the out-of-scope register decoder are never reported. -/
  result : s.resultKind ≠ some 7 ∧ s.resultKind ≠ some 8
  /-- What holds at the position of a running operation (R21). -/
  pos : ∀ p, s.opState = .busy p → PosInv s p

end Sys2Proof.Machine
end

