-- ==== Sys2Proof/Certificates/Slice0/Obligations.lean ====
section
/-! DEFINITION. The statements for the provers, and the vocabulary they are written in: what the rules of
spec/ say a state looks like after an operation ended, a command was issued next, a block failed. -/

namespace Sys2Proof.Claims
open Sys2Proof.Machine

/-- The end of an operation after its `Select()`, with result code `c` (R268, R34, R35). -/
def ended (c : BitVec 4) (s : State) : State :=
  { s with bus := s.bus ++ [.deselect], resultKind := some c, opState := .idle, pkt := [], resp := [] }

/-- `INIT` failed with code `c` (R184). -/
def initFailed (c : BitVec 4) (s : State) : State := ended c { s with negState := .failed }

/-- A block operation failed after its `Select()` with code `c` (R212). -/
def ioFailed (c : BitVec 4) (s : State) : State := ended c { s with sessionValid := false }

/-- The procedure is at a position that issues no command. -/
def movedTo (p : Pos) (s : State) : State := { s with opState := .busy p }

/-- The procedure is at a position that issues command `k` with argument `arg` next (R34, R131). -/
def issuesNext (p : Pos) (k : Cmd) (arg : Word) (s : State) : State :=
  { s with opState := .busy p, pkt := frame (s.cfg.idx k) arg }

/-- `INIT` succeeded (R182, R183). -/
def ready (s : State) : State :=
  ended 0 { s with
    blockLen := some s.cfg.blockLenOp
    clockMode := .fast
    bus := s.bus ++ [.setClock s.cfg.clkFast]
    negState := .ready
    sessionValid := true }

/-- A block of a read failed (R228): the stop command comes next, or a single-block read ends. -/
def readFailed (x : Xfer) (e : ErrorKind) (s : State) : State :=
  if x.multi then issuesNext (.readStop (some e)) .stopTransmission 0 s else ioFailed e.code s

/-- A read is at block `x.block`: its token is awaited, or no block is left (R215, R228). -/
def readOn (x : Xfer) (s : State) : State :=
  if x.block < x.count then movedTo (.readToken x 1) s
  else if x.multi then issuesNext (.readStop none) .stopTransmission 0 s
  else ended 0 s

/-- A block of a write failed (R234): the stop token comes next, or a single-block write ends. -/
def writeFailed (x : Xfer) (e : ErrorKind) (s : State) : State :=
  if x.multi then movedTo (.writeStop (some e)) s else ioFailed e.code s

/-- A write is at block `x.block`: it is framed next, or no block is left (R220, R234). -/
def writeOn (x : Xfer) (s : State) : State :=
  if x.block < x.count then movedTo (.writeFrame x) s
  else if x.multi then movedTo (.writeStop none) s
  else ended 0 s

/-- The end after a stop sequence (R228, R234): the block error or success. -/
def stopped (err : Option ErrorKind) (s : State) : State :=
  match err with
  | none => ended 0 s
  | some e => ioFailed e.code s

/-- The code of a failed response to a block command (R213). -/
def cmdError (r : Byte) : BitVec 4 :=
  if r.getLsbD 5 then 9 else if r.getLsbD 6 then 10 else 15

/-- The error of a read error token (R217). -/
def tokenError (b : Byte) : ErrorKind :=
  if b.getLsbD 3 then .addressOutOfBounds
  else if b.getLsbD 2 then .cardEccFailure
  else if b.getLsbD 1 then .cardControllerFailure
  else .unknownProtocolFault

/-- The card's `i`-th coming answer: listed, or free (R288; log 2). -/
def answer (s : State) (i : Nat) : Byte :=
  match s.cardIn[i]? with
  | some b => b
  | none => Config.cardByte (s.draws + (i - s.cardIn.length))

/-- The state after the card gave its next `n` answers. -/
def received (n : Nat) (s : State) : State :=
  { s with
    cardIn := s.cardIn.drop n
    draws := s.draws + (n - s.cardIn.length)
    bus := s.bus ++ ((List.range n).map (answer s)).map .recv }

/-- A state in which the block may go on with its operation: the host has no action to take first. -/
def Unhurried (s : State) : Prop := s.hostIn = [] ∨ ∃ rest, s.hostIn = .wait :: rest

/-- A session on which a block operation may start (R210, R211): IDLE, valid, with a block length, an address
and a capacity class. -/
def SessionAt (bl : Word) (a : Nat) (cap : CapClass) (s : State) : Prop :=
  s.opState = .idle ∧ s.sessionValid = true ∧ s.blockLen = some bl ∧ s.reqAddr = some a ∧ s.capClass = some cap

/-- The four block operations (R12). -/
def blockOps : List Instr := [.readBlock, .writeBlock, .readBlocks, .writeBlocks]

/-- The frame of a block as it comes from a card (R85): token, payload, CRC16. -/
def blockFrame (tok : Byte) (p : List Byte) : List Byte :=
  tok :: p ++ [(crc16 p).extractLsb' 8 8, (crc16 p).extractLsb' 0 8]

/-- The operations that contain no busy-wait (R265): `INIT`, `READ_STATUS`, `READ_BLOCK`. -/
def BusyWaitFree : Pos → Prop
  | .readCmd x => x.multi = false
  | .readToken x _ => x.multi = false
  | .sendStatus => True
  | p => p.inInit = true

/-- The result codes the operation at a position can end with once it runs (R263). Code 11, and the
precheck's 9, come before it runs (R211). -/
def resultCodes (p : Pos) : List (BitVec 4) :=
  if p.inInit then [0, 1, 2, 3, 4, 5, 6, 15]
  else if p.inRead then [0, 1, 9, 10, 12, 13, 14, 15]
  else if p.inWrite then [0, 1, 9, 10, 12, 14, 15]
  else [0, 1]

/-- The positions at which a command is issued. -/
def Issues : Pos → Prop
  | .reset => True
  | .ifCond => True
  | .ocrFamily => True
  | .appPrefix _ _ => True
  | .appOpCond _ _ => True
  | .opCond _ => True
  | .ocrCapacity _ => True
  | .setBlockLen => True
  | .sendStatus => True
  | .readCmd _ => True
  | .writeCmd _ => True
  | .readStop _ => True
  | _ => False

/-- The positions of a busy-wait (R137). -/
def BusyWaits : Pos → Prop
  | .writeBusy _ _ => True
  | .readStopBusy _ => True
  | .writeStopBusy _ => True
  | _ => False

/-- Where the procedures issue, send or await an instruction (R170-R182, R214, R215, R220, R221, R228, R229,
R234, R235). -/
def Place : Instr → Pos → Prop
  | .cmdReset _ _, .reset => True
  | .cmdIfCond _ _, .ifCond => True
  | .cmdReadOcr _ _, .ocrFamily => True
  | .cmdReadOcr _ _, .ocrCapacity _ => True
  | .cmdAppPrefix _ _, .appPrefix _ _ => True
  | .acmd41 _ _, .appPrefix _ _ => True
  | .cmdAppOpCond _ _, .appOpCond _ _ => True
  | .cmdSendOpCond _ _, .opCond _ => True
  | .cmdSetBlockLen _ _, .setBlockLen => True
  | .cmdSendStatus _ _, .sendStatus => True
  | .cmdReadSingle _ _, .readCmd x => x.multi = false
  | .cmdReadMulti _ _, .readCmd x => x.multi = true
  | .cmdWriteSingle _ _, .writeCmd x => x.multi = false
  | .cmdWriteMulti _ _, .writeCmd x => x.multi = true
  | .cmdStopTransmission _ _, .readStop _ => True
  | .tokStartSingle, .readToken x _ => x.multi = false
  | .tokStartSingle, .writeFrame x => x.multi = false
  | .tokStartMultiRd, .readToken x _ => x.multi = true
  | .tokStartMultiWr, .writeFrame x => x.multi = true
  | .tokStopMultiWr, .writeStop _ => True
  | .errorToken _, .readToken _ _ => True
  | .dataRespAccepted _, .writeVerdict _ _ => True
  | .dataRespCrcRejected _, .writeVerdict _ _ => True
  | .dataRespWriteRejected _, .writeVerdict _ _ => True
  | _, _ => False

/-- `n` steps of the machine. -/
def runs (n : Nat) (s : State) : Host.Outcome State Fault Refusal := Sys2Proof.core.run n s

/-- The operands the host gives an operation, replaced (R97, R99). -/
def withOperands (addr len : Option Nat) (tb : List Host.Cell) (s : State) : State :=
  { s with reqAddr := addr, reqLen := len, tb := tb }

/-- An outcome with its next state mapped. -/
def mapNext (f : State → State) : Host.Outcome State Fault Refusal → Host.Outcome State Fault Refusal
  | .next t => .next (f t)
  | .fault e => .fault e
  | .refused e => .refused e

end Sys2Proof.Claims

open Sys2Proof Sys2Proof.Machine Sys2Proof.Claims

/-- Under the default configuration, three packets written out in R140, R142 and R145, the packet of CMD_READ_SINGLE for address 0x200 written out in R215, the prefix and target packets of R151 and R150 as the pair of ACMD41 (R76, R153; that the pair is one word is the model's, log 16), and bytes of R98, R88, R89 and R93 decode to the instructions they stand for. -/
def Obligations.ListedWordsDecode : Prop :=
  decode Config.standard .packet [0x40, 0x00, 0x00, 0x00, 0x00, 0x95] = .ok (.cmdReset 0 0x4A)
  ∧ decode Config.standard .packet [0x48, 0x00, 0x00, 0x01, 0xAA, 0x87] = .ok (.cmdIfCond 0x1AA 0x43)
  ∧ decode Config.standard .packet [0x50, 0x00, 0x00, 0x02, 0x00, 0x15] = .ok (.cmdSetBlockLen 0x200 0x0A)
  ∧ decode Config.standard .packet [0x51, 0x00, 0x00, 0x02, 0x00, 0x79] = .ok (.cmdReadSingle 0x200 0x3C)
  ∧ decode Config.standard .packet
      [0x77, 0x00, 0x00, 0x00, 0x00, 0x65, 0x69, 0x40, 0x00, 0x00, 0x00, 0x77] = .ok (.acmd41 0x40000000 0x3B)
  ∧ decode Config.standard .hostOp [0x04] = .ok .readBlocks
  ∧ decode Config.standard (.rxToken false) [0xFE] = .ok .tokStartSingle
  ∧ decode Config.standard .txToken [0xFC] = .ok .tokStartMultiWr
  ∧ decode Config.standard .dataResp [0xE5] = .ok (.dataRespAccepted 0b111)

/-- For every valid configuration and every well-formed instruction with every operand value, decoding its encoding as the kind of item it is gives the instruction; the start token of a single block also as a token that is sent, an error token also in the wait of a multi-block read. -/
def Obligations.DecodeEncode : Prop :=
  ∀ (c : Config) (i : Instr), c.valid = true → i.wellFormed c = true →
    decode c i.fmt (encode c i) = .ok i
    ∧ (i = .tokStartSingle → decode c .txToken (encode c i) = .ok i)
    ∧ (∀ b, i = .errorToken b → decode c (.rxToken true) (encode c i) = .ok i)

/-- For every configuration and kind of item, bytes that decode to an instruction are exactly the bytes that instruction encodes to, so no bit of a word is dropped. -/
def Obligations.EncodeDecode : Prop :=
  ∀ (c : Config) (f : Fmt) (bytes : List Byte) (i : Instr), decode c f bytes = .ok i → encode c i = bytes

/-- A framed packet is 6 bytes: 0x40 with the index in its low six bits, the argument big-endian, and CRC7 of the first five bytes shifted left by one with the end bit 1. -/
def Obligations.FrameLayout : Prop :=
  ∀ (idx : BitVec 6) (arg : Word),
    frame idx arg =
      [0x40#8 ||| idx.setWidth 8, arg.extractLsb' 24 8, arg.extractLsb' 16 8, arg.extractLsb' 8 8,
        arg.extractLsb' 0 8,
        ((crc7 [0x40#8 ||| idx.setWidth 8, arg.extractLsb' 24 8, arg.extractLsb' 16 8, arg.extractLsb' 8 8,
          arg.extractLsb' 0 8]).setWidth 8 <<< 1) ||| 1]

/-- A six-byte string is well formed in the sense of R77 exactly when it is the frame of the index in its first byte and the argument in the next four; under a configuration that has the index it then decodes to that command with that argument and the CRC field of the frame. -/
def Obligations.WellFormedPacketIsFrame : Prop :=
  ∀ (c : Config) (p0 p1 p2 p3 p4 p5 : Byte),
    (packetWellFormed [p0, p1, p2, p3, p4, p5] = true ↔
      frame (p0.extractLsb' 0 6) (p1 ++ p2 ++ p3 ++ p4) = [p0, p1, p2, p3, p4, p5])
    ∧ (packetWellFormed [p0, p1, p2, p3, p4, p5] = true → ∀ k, cmdOfIdx c (p0.extractLsb' 0 6) = some k →
      decode c .packet [p0, p1, p2, p3, p4, p5]
        = .ok (.ofCmd k (p1 ++ p2 ++ p3 ++ p4) (crc7 [p0, p1, p2, p3, p4])))

/-- For every byte sequence the 8-bit-register form ends with CRC7 in its low seven bits, and gives the same transmitted byte; and any function is a right CRC7 exactly when it agrees with it everywhere. -/
def Obligations.Crc7EightBitRegister : Prop :=
  (∀ data : List Byte,
    crc7Acc data = crc7 data ∧ crc7TxByte data = ((crc7Acc data).setWidth 8 <<< 1) ||| 1)
  ∧ ∀ f : List Byte → BitVec 7, (∀ data, f data = crc7 data) ↔ ∀ data, f data = crc7Acc data

/-- CRC7 and CRC16 of any number of zero bytes are 0, both are linear over XOR of inputs of equal length, and the examples of R111 and R115 that need no block hold. -/
def Obligations.CrcCornerCases : Prop :=
  (∀ n : Nat, crc7 (List.replicate n 0) = 0 ∧ crc16 (List.replicate n 0) = 0)
  ∧ (∀ xs ys : List Byte, xs.length = ys.length →
      crc7 (List.zipWith (· ^^^ ·) xs ys) = crc7 xs ^^^ crc7 ys
      ∧ crc16 (List.zipWith (· ^^^ ·) xs ys) = crc16 xs ^^^ crc16 ys)
  ∧ crc7 [0x40, 0x00, 0x00, 0x00, 0x00] = 0x4A ∧ crc16 [0x01] = 0x1021

/-- For every payload the check passes for two trailer bytes exactly when they are the two bytes generated for it, most significant first. -/
def Obligations.Crc16CheckAcceptsGenerated : Prop :=
  ∀ (p : List Byte) (hi lo : Byte), crc16Check p hi lo = true ↔ crc16Gen p = [hi, lo]

/-- Issue frames the packet into PKT and sends its six bytes with nothing between them; then either the first answer that is not IDLE_FILL comes at an attempt inside the budget, and it and the rest of the response are read by count into RESP, or every answer of the whole budget is IDLE_FILL and it times out. Nothing else of the state changes. -/
def Obligations.IssueTransaction : Prop :=
  ∀ (k : Cmd) (arg : Word) (s : State),
    let sent : State := { s with
      pkt := frame (s.cfg.idx k) arg
      bus := s.bus ++ (frame (s.cfg.idx k) arg).map .send }
    (frame (s.cfg.idx k) arg).length = 6 ∧
    ((∃ m, m < s.cfg.respPollMax ∧ (∀ i, i < m → answer s i = s.cfg.idleFill) ∧ answer s m ≠ s.cfg.idleFill ∧
        issue k arg s =
          (.response (answer s m) ((List.range (respLen k - 1)).map fun i => answer s (m + 1 + i)),
            { received (m + respLen k) sent with
              resp := (List.range (respLen k)).map fun i => answer s (m + i) }))
      ∨ ((∀ i, i < s.cfg.respPollMax → answer s i = s.cfg.idleFill)
        ∧ issue k arg s = (.timeout, received s.cfg.respPollMax sent)))

/-- A written range of TB reads back as the bytes written, every byte outside it reads as before, and two buffers in canonical form that read the same everywhere are equal. The canonical form is the model's (log 7). -/
def Obligations.TransferBufferReadsBack : Prop :=
  (∀ (m : List Host.Cell) (a : Nat) (bs : List Byte),
    Mem.readRange (Mem.write m a bs) a bs.length = some bs
    ∧ ∀ k, k < a ∨ a + bs.length ≤ k → Mem.read (Mem.write m a bs) k = Mem.read m k)
  ∧ ∀ m m' : List Host.Cell, Mem.wf m → Mem.wf m' → (∀ a, Mem.read m a = Mem.read m' a) → m = m'

/-- A standard-capacity card is sent the byte address, a high-capacity card the address divided by the block length, as the 32-bit argument if it fits and not at all if it does not. That a standard-capacity byte address of 2^32 or more gives no argument is the model's (log 22): R54 and U15 speak of the high-capacity quotient. With ADDR_W = 32 it always fits, and with the block length 512 an aligned address of a high-capacity card is recovered from the index, which is below 2^23. -/
def Obligations.WireAddress : Prop :=
  ∀ (bl : Word) (a : Nat),
    wireAddr .standard bl a = a ∧ wireAddr .high bl a = a / bl.toNat
    ∧ (∀ cap, (∀ wa, wireArg cap bl a = some wa ↔ wa.toNat = wireAddr cap bl a)
      ∧ (wireArg cap bl a = none ↔ 2 ^ 32 ≤ wireAddr cap bl a)
      ∧ (a < 2 ^ 32 → (wireArg cap bl a).isSome))
    ∧ (a < 2 ^ 32 → wireAddr .high 512 a < 2 ^ 23)
    ∧ (a % 512 = 0 → wireAddr .high 512 a * 512 = a)

/-- After reset SESSION_VALID is 0, CLOCK_MODE SLOW, NEG_STATE PowerOn, OP_STATE IDLE; every other register and every byte of TB holds no value, the transient buffers hold none, and no bus event has been made. -/
def Obligations.ResetLeaves : Prop :=
  State.reset.sessionValid = false ∧ ClockMode.code State.reset.clockMode = 0
  ∧ NegState.code State.reset.negState = 0 ∧ State.reset.opState = .idle ∧ OpState.bit State.reset.opState = 0
  ∧ State.reset.family = none ∧ State.reset.generation = none ∧ State.reset.capClass = none
  ∧ State.reset.blockLen = none ∧ State.reset.reqOp = none ∧ State.reset.reqAddr = none
  ∧ State.reset.reqLen = none ∧ State.reset.resultKind = none ∧ State.reset.resultValue = none
  ∧ (∀ a, Mem.read State.reset.tb a = none) ∧ State.reset.pkt = [] ∧ State.reset.resp = []
  ∧ State.reset.bus = []

/-- FAMILY, GENERATION, CAP_CLASS, CLOCK_MODE, NEG_STATE and OP_STATE have the encodings of R24-R30, and the fifteen error kinds the codes of R261. -/
def Obligations.RegisterCodes : Prop :=
  [Family.sd.code, Family.mmc.code] = [0, 1] ∧ [Generation.legacy.code, Generation.v2.code] = [0, 1]
  ∧ [CapClass.standard.code, CapClass.high.code] = [0, 1] ∧ [ClockMode.slow.code, ClockMode.fast.code] = [0, 1]
  ∧ [NegState.powerOn, .idle, .voltageChecked, .familyKnown, .negotiated, .capacityClassified, .ready, .failed].map
      NegState.code = [0, 1, 2, 3, 4, 5, 6, 7]
  ∧ OpState.idle.bit = 0 ∧ (∀ p, (OpState.busy p).bit = 1) ∧ resultCode none = 0
  ∧ [ErrorKind.responseTimeout, .resetFailed, .checkPatternInvalid, .unsupportedVoltage, .notASupportedCard,
      .initTimeout, .registerFetchFailed, .registerCrcInvalid, .addressMisaligned, .addressOutOfBounds,
      .dataLengthNotBlockMultiple, .blockCrcInvalid, .cardEccFailure, .cardControllerFailure,
      .unknownProtocolFault].map ErrorKind.code = [1, 2, 3, 4, 5, 6, 7, 8, 9, 10, 11, 12, 13, 14, 15]

/-- INIT runs from every IDLE state: it clears the session, takes the session registers' values away, sets PowerOn and SLOW, requests the slow clock, selects the card and frames the reset command; nothing else changes. -/
def Obligations.InitStarts : Prop :=
  ∀ s : State, s.opState = .idle →
    exec .init s = .next (issuesNext .reset .reset 0 { s with
      sessionValid := false
      family := none
      generation := none
      capClass := none
      blockLen := none
      negState := .powerOn
      clockMode := .slow
      bus := s.bus ++ [.setClock s.cfg.clkSlow, .select] })

/-- With a session and aligned operands whose wire address fits the argument each block operation selects the card and frames its command with it; the multi-block operations count REQ_LEN / BLOCK_LEN blocks; nothing else changes. A wire address that does not fit is refused: R54 and U15 say so of the quotient of a high-capacity card, and that the byte address of a standard-capacity card is refused too (from R9 and R73), and that the refusal comes after the alignment checks, is the model's (log 22). Where REQ_ADDR, or for a multi-block operation with an aligned address REQ_LEN, holds no value, the start is a fault that names it (R22, R33 and U6 as log 5 reads them). That the start is one step is the model's (log 1). -/
def Obligations.BlockOpsStart : Prop :=
  ∀ (s : State) (bl : Word), s.opState = .idle → s.sessionValid = true → s.blockLen = some bl →
    (∀ (a l : Nat) (cap : CapClass) (wa : Word), SessionAt bl a cap s → a % bl.toNat = 0 →
      wa.toNat = (match cap with
        | .high => a / bl.toNat
        | .standard => a) →
      let t : State := { s with bus := s.bus ++ [.select] }
      exec .readBlock s = .next (issuesNext (.readCmd ⟨false, 0, 1⟩) .readSingle wa t)
      ∧ exec .writeBlock s = .next (issuesNext (.writeCmd ⟨false, 0, 1⟩) .writeSingle wa t)
      ∧ (s.reqLen = some l → l % bl.toNat = 0 →
        exec .readBlocks s = .next (issuesNext (.readCmd ⟨true, 0, l / bl.toNat⟩) .readMulti wa t)
        ∧ exec .writeBlocks s = .next (issuesNext (.writeCmd ⟨true, 0, l / bl.toNat⟩) .writeMulti wa t)))
    ∧ (∀ (a l : Nat) (cap : CapClass), SessionAt bl a cap s → a % bl.toNat = 0 →
      2 ^ 32 ≤ (match cap with
        | .high => a / bl.toNat
        | .standard => a) →
      (∀ i ∈ [Instr.readBlock, .writeBlock], exec i s = .refused .addressTooWide)
      ∧ (s.reqLen = some l → l % bl.toNat = 0 →
        ∀ i ∈ [Instr.readBlocks, .writeBlocks], exec i s = .refused .addressTooWide))
    ∧ (s.reqAddr = none → ∀ i ∈ blockOps, exec i s = .fault (.noValue .reqAddr))
    ∧ (∀ a, s.reqAddr = some a → a % bl.toNat = 0 → s.reqLen = none →
      ∀ i ∈ [Instr.readBlocks, .writeBlocks], exec i s = .fault (.noValue .reqLen))

/-- In a session, a misaligned address ends each of the four block operations with code 9, and with an aligned address a misaligned length ends the multi-block operations with code 11; only RESULT_KIND is written and no bus event is made. -/
def Obligations.PrechecksFail : Prop :=
  ∀ (s : State) (bl : Word) (a l : Nat) (cap : CapClass), SessionAt bl a cap s →
    (a % bl.toNat ≠ 0 → ∀ i ∈ blockOps, exec i s = .next { s with resultKind := some 9 })
    ∧ (a % bl.toNat = 0 → s.reqLen = some l → l % bl.toNat ≠ 0 →
      ∀ i ∈ [Instr.readBlocks, .writeBlocks], exec i s = .next { s with resultKind := some 11 })

/-- The codes 0x0, 0xA and 0xD-0xF are refused as reserved and 0xB and 0xC as out of scope, in every state; while SESSION_VALID is 0 each of the four block operations is refused in every IDLE state. A refusal has no next state: no bus event and no register write. -/
def Obligations.StartsRefused : Prop :=
  ∀ s : State,
    exec .reserved0 s = .refused (.reservedOp 0x0) ∧ exec .reservedA s = .refused (.reservedOp 0xA)
    ∧ exec .eraseOutOfScope s = .refused (.outOfScopeOp 0xB)
    ∧ exec .getSizeOutOfScope s = .refused (.outOfScopeOp 0xC)
    ∧ exec .reservedD s = .refused (.reservedOp 0xD) ∧ exec .reservedE s = .refused (.reservedOp 0xE)
    ∧ exec .reservedF s = .refused (.reservedOp 0xF)
    ∧ (s.opState = .idle → s.sessionValid = false →
      ∀ i ∈ blockOps, exec i s = .refused .noSession)

/-- In every IDLE state in which its register holds a value, an accessor writes that value zero-extended to RESULT_VALUE and 0 to RESULT_KIND, and nothing else; where the register holds none, the accessor is a fault that names it. -/
def Obligations.AccessorResults : Prop :=
  ∀ s : State, s.opState = .idle →
    (∀ f, s.family = some f → exec .getIsMmc s = .next { s with
      resultValue := some (f.code.setWidth 16), resultKind := some 0 })
    ∧ (∀ l, s.blockLen = some l → exec .getBlockLen s = .next { s with
      resultValue := some (l.extractLsb' 0 16), resultKind := some 0 })
    ∧ (∀ c, s.capClass = some c → exec .getIsHc s = .next { s with
      resultValue := some (c.code.setWidth 16), resultKind := some 0 })
    ∧ (s.family = none → exec .getIsMmc s = .fault (.noValue .family))
    ∧ (s.blockLen = none → exec .getBlockLen s = .fault (.noValue .blockLen))
    ∧ (s.capClass = none → exec .getIsHc s = .fault (.noValue .capClass))

/-- From every IDLE state READ_STATUS selects the card and frames its command; at its command the two response bytes go to RESULT_VALUE, first byte high, with code 0, and a response timeout ends it with code 1 and no value written. No session register changes. -/
def Obligations.ReadStatusResult : Prop :=
  (∀ s : State, s.opState = .idle →
    exec .readStatus s = .next (issuesNext .sendStatus .sendStatus 0 { s with bus := s.bus ++ [.select] }))
  ∧ ∀ (arg : Word) (crc : BitVec 7) (s : State), s.opState = .busy .sendStatus →
    (∃ u, issue .sendStatus arg s = (.timeout, u) ∧ exec (.cmdSendStatus arg crc) s = .next (ended 1 u))
    ∨ ∃ r b u, issue .sendStatus arg s = (.response r [b], u)
        ∧ exec (.cmdSendStatus arg crc) s = .next (ended 0 { u with resultValue := some (r ++ b) })

/-- While an operation runs, a start or a write of REQ_OP, REQ_ADDR, REQ_LEN or TB by the host is recorded as refused and changes nothing else: the operation goes on unchanged. -/
def Obligations.BusyActionsRefused : Prop :=
  ∀ (s : State) (p : Pos) (a : HostAct) (rest : List HostAct), s.opState = .busy p → s.hostIn = a :: rest →
    (a = .start ∨ (∃ v, a = .writeOp v) ∨ (∃ v, a = .writeAddr v) ∨ (∃ v, a = .writeLen v)
      ∨ ∃ o bs, a = .writeTB o bs) →
    step s = .next { s with hostIn := rest, refusedActs := s.refusedActs ++ [a] }

/-- With no operation running, the host's write of REQ_OP, REQ_ADDR, REQ_LEN or bytes of TB sets that and nothing else, an operand keeping its low ADDR_W bits (log 22), its read of a byte of TB returns the byte, and a start with no REQ_OP is a fault that names it; a write beyond the offsets of TB is a fault (log 7). In every state its read of OP_STATE, RESULT_KIND or RESULT_VALUE returns the value the register holds and changes nothing, while an operation runs too, and its read of TB while one runs is recorded as refused and changes nothing else: both are R22's access column as log 18 reads it. A read where there is no value is a fault that names the register. -/
def Obligations.HostActions : Prop :=
  ∀ (s : State) (rest : List HostAct),
    (∀ v, s.opState = .idle → s.hostIn = .writeOp v :: rest → step s = .next { s with hostIn := rest, reqOp := some v })
    ∧ (∀ v, s.opState = .idle → s.hostIn = .writeAddr v :: rest →
      step s = .next { s with hostIn := rest, reqAddr := some (v % 2 ^ s.cfg.addrW) })
    ∧ (∀ v, s.opState = .idle → s.hostIn = .writeLen v :: rest →
      step s = .next { s with hostIn := rest, reqLen := some (v % 2 ^ s.cfg.addrW) })
    ∧ (∀ o bs, s.opState = .idle → s.hostIn = .writeTB o bs :: rest →
      step s = if o + bs.length ≤ 2 ^ s.cfg.addrW ∨ o + bs.length ≤ s.cfg.blockLenOp.toNat then
          .next { s with hostIn := rest, tb := Mem.write s.tb o bs }
        else .fault .outsideTB)
    ∧ (∀ o p, s.opState = .busy p → s.hostIn = .readTB o :: rest →
      step s = .next { s with hostIn := rest, refusedActs := s.refusedActs ++ [.readTB o] })
    ∧ (s.opState = .idle → s.reqOp = none → s.hostIn = .start :: rest → step s = .fault (.noValue .reqOp))
    ∧ (∀ o, s.opState = .idle → s.hostIn = .readTB o :: rest →
      (Mem.read s.tb o = none → step s = .fault (.noValue .tb))
      ∧ ∀ v, Mem.read s.tb o = some v →
        step s = .next { s with hostIn := rest, hostOut := s.hostOut ++ [.tbByte v] })
    ∧ (s.hostIn = .readOpState :: rest →
      step s = .next { s with hostIn := rest, hostOut := s.hostOut ++ [.opState s.opState.bit] })
    ∧ (s.hostIn = .readResultKind :: rest →
      (s.resultKind = none → step s = .fault (.noValue .resultKind))
      ∧ ∀ v, s.resultKind = some v →
        step s = .next { s with hostIn := rest, hostOut := s.hostOut ++ [.resultKind v] })
    ∧ (s.hostIn = .readResultValue :: rest →
      (s.resultValue = none → step s = .fault (.noValue .resultValue))
      ∧ ∀ v, s.resultValue = some v →
        step s = .next { s with hostIn := rest, hostOut := s.hostOut ++ [.resultValue v] })

/-- In every state a command or token that the running procedure does not issue, send or await at its position is refused, in IDLE states too; and in every BUSY state each of the nine host operations that have a meaning is refused. That these refusals have names of their own is the model's (log 6, log 17). -/
def Obligations.OutOfPlaceRefused : Prop :=
  ∀ (i : Instr) (s : State),
    (i.fmt ≠ .hostOp → (∀ p, s.opState = .busy p → ¬ Place i p) → exec i s = .refused .outOfPlace)
    ∧ (i ∈ [Instr.init, .readBlock, .writeBlock, .readBlocks, .writeBlocks, .readStatus, .getIsMmc, .getBlockLen, .getIsHc] →
      ∀ p, s.opState = .busy p → exec i s = .refused .startWhileBusy)

/-- After Issue, a response with bit 0 set moves NEG_STATE to Idle and frames the voltage check next; one without it ends INIT with code 2, a timeout with code 1. Nothing else changes. -/
def Obligations.ResetCommandResult : Prop :=
  ∀ (arg : Word) (crc : BitVec 7) (s : State), s.opState = .busy .reset →
    exec (.cmdReset arg crc) s = .next (match issue .reset arg s with
      | (.timeout, u) => initFailed 1 u
      | (.response r _, u) =>
        if r.getLsbD 0 then
          issuesNext .ifCond .ifCond ((u.cfg.vhsCode ++ u.cfg.checkPattern).setWidth 32) { u with negState := .idle }
        else initFailed 2 u)

/-- After Issue, an illegal-command bit makes the generation legacy and skips validation; otherwise it is v2+ and a wrong echoed pattern ends INIT with code 3, else a wrong echoed voltage code with code 4; passing moves to VoltageChecked and frames the OCR read next. A timeout ends with code 1. -/
def Obligations.VoltageCheckResult : Prop :=
  ∀ (arg : Word) (crc : BitVec 7) (s : State), s.opState = .busy .ifCond →
    exec (.cmdIfCond arg crc) s = .next (match issue .ifCond arg s with
      | (.timeout, u) => initFailed 1 u
      | (.response r bs, u) =>
        if r.getLsbD 2 then
          issuesNext .ocrFamily .readOcr 0 { u with generation := some .legacy, negState := .voltageChecked }
        else if (ofBe bs).extractLsb' 0 8 ≠ u.cfg.checkPattern then
          initFailed 3 { u with generation := some .v2 }
        else if (ofBe bs).extractLsb' 8 4 ≠ u.cfg.vhsCode then
          initFailed 4 { u with generation := some .v2 }
        else
          issuesNext .ocrFamily .readOcr 0 { u with generation := some .v2, negState := .voltageChecked })

/-- After Issue of the OCR read, an illegal-command bit makes the family MMC; otherwise it is SD and the voltage-window bit of the OCR must be set, else INIT ends with code 4; passing moves to FamilyKnown, and step 4 begins. A timeout ends with code 1. -/
def Obligations.FamilyResult : Prop :=
  ∀ (arg : Word) (crc : BitVec 7) (s : State), s.opState = .busy .ocrFamily →
    exec (.cmdReadOcr arg crc) s = .next (match issue .readOcr arg s with
      | (.timeout, u) => initFailed 1 u
      | (.response r bs, u) =>
        if r.getLsbD 2 then movedTo .step4 { u with family := some .mmc, negState := .familyKnown }
        else if (ofBe bs).getLsbD u.cfg.ocrVwinBit.val then
          movedTo .step4 { u with family := some .sd, negState := .familyKnown }
        else initFailed 4 { u with family := some .sd })

/-- For an SD card step 4 begins the loop of prefix and target commands, bit 30 of the target's argument set exactly for a v2+ card. A prefix response with only the idle bit, or 0, lets the target be sent; an illegal bit ends INIT with code 5 and any other bit with code 15. A target response with the illegal bit ends it with code 5, one with bit 0 clear moves to Negotiated, and otherwise the next attempt begins until the budget is used and the fallback loop begins. A timeout of either ends it with code 1. -/
def Obligations.SdLoop : Prop :=
  (∀ (s : State) (g : Generation), Unhurried s → s.opState = .busy .step4 → s.family = some .sd →
    s.generation = some g →
    step s = .next (issuesNext (.appPrefix (if g = .v2 then 0x40000000 else 0) 1) .appPrefix 0 s))
  ∧ (∀ (arg harg : Word) (k : Nat) (crc : BitVec 7) (s : State), s.opState = .busy (.appPrefix harg k) →
    exec (.cmdAppPrefix arg crc) s = .next (match issue .appPrefix arg s with
      | (.timeout, u) => initFailed 1 u
      | (.response p _, u) =>
        if p &&& 0xFE = 0 then issuesNext (.appOpCond harg k) .appOpCond harg u
        else if p.getLsbD 2 then initFailed 5 u
        else initFailed 15 u))
  ∧ ∀ (arg harg : Word) (k : Nat) (crc : BitVec 7) (s : State), s.opState = .busy (.appOpCond harg k) →
    exec (.cmdAppOpCond arg crc) s = .next (match issue .appOpCond arg s with
      | (.timeout, u) => initFailed 1 u
      | (.response r _, u) =>
        if r.getLsbD 2 then initFailed 5 u
        else if r.getLsbD 0 = false then movedTo .step5 { u with negState := .negotiated }
        else if k < u.cfg.initPollMax then issuesNext (.appPrefix harg (k + 1)) .appPrefix 0 u
        else issuesNext (.opCond 1) .sendOpCond 0 u)

/-- One attempt of the SD loop as one instruction: the prefix is issued with argument 0, and only after a response with no bit but the idle bit is the target issued; its response is parsed as in R177. That the attempt runs as one step when the pair is given as one word is the model's (log 16). -/
def Obligations.ApplicationCommandResult : Prop :=
  ∀ (arg harg : Word) (k : Nat) (crc : BitVec 7) (s : State), s.opState = .busy (.appPrefix harg k) →
    exec (.acmd41 arg crc) s = .next (match issue .appPrefix 0 s with
      | (.timeout, u) => initFailed 1 u
      | (.response p _, u) =>
        if p &&& 0xFE = 0 then
          match issue .appOpCond arg u with
          | (.timeout, v) => initFailed 1 v
          | (.response r _, v) =>
            if r.getLsbD 2 then initFailed 5 v
            else if r.getLsbD 0 = false then movedTo .step5 { v with negState := .negotiated }
            else if k < v.cfg.initPollMax then issuesNext (.appPrefix harg (k + 1)) .appPrefix 0 v
            else issuesNext (.opCond 1) .sendOpCond 0 v
        else if p.getLsbD 2 then initFailed 5 u
        else initFailed 15 u)

/-- At an attempt of the SD loop, ACMD41 with the loop's argument ends in the state that the prefix command with argument 0, and then the target command where the prefix let it be sent, end in. -/
def Obligations.ApplicationCommandIsItsTwoCommands : Prop :=
  ∀ (harg : Word) (k : Nat) (c1 c2 c3 : BitVec 7) (s u : State), s.opState = .busy (.appPrefix harg k) →
    exec (.cmdAppPrefix 0 c1) s = .next u →
    exec (.acmd41 harg c2) s
      = if u.opState = .busy (.appOpCond harg k) then exec (.cmdAppOpCond harg c3) u else .next u

/-- For an MMC card step 4 begins with the simple initialization command; each attempt's illegal bit ends INIT with code 5, a response with bit 0 clear moves to Negotiated, and a response with bit 0 set begins the next attempt until the budget is used, which ends INIT with code 6. A timeout ends it with code 1. The family is not changed. -/
def Obligations.FallbackLoop : Prop :=
  (∀ s : State, Unhurried s → s.opState = .busy .step4 → s.family = some .mmc →
    step s = .next (issuesNext (.opCond 1) .sendOpCond 0 s))
  ∧ ∀ (arg : Word) (k : Nat) (crc : BitVec 7) (s : State), s.opState = .busy (.opCond k) →
    exec (.cmdSendOpCond arg crc) s = .next (match issue .sendOpCond arg s with
      | (.timeout, u) => initFailed 1 u
      | (.response r _, u) =>
        if r.getLsbD 2 then initFailed 5 u
        else if r.getLsbD 0 = false then movedTo .step5 { u with negState := .negotiated }
        else if k < u.cfg.initPollMax then issuesNext (.opCond (k + 1)) .sendOpCond 0 u
        else initFailed 6 u)

/-- A legacy card is standard capacity with no bus event; for a v2+ card the OCR is read again, an illegal bit ends INIT with code 15, the power-up bit lets bit 30 give the class, and without it the next attempt begins until the budget is used, which ends INIT with code 6. A timeout ends it with code 1. -/
def Obligations.CapacityStep : Prop :=
  (∀ s : State, Unhurried s → s.opState = .busy .step5 →
    (s.generation = some .legacy →
      step s = .next (movedTo .step6 { s with capClass := some .standard, negState := .capacityClassified }))
    ∧ (s.generation = some .v2 → step s = .next (issuesNext (.ocrCapacity 1) .readOcr 0 s)))
  ∧ ∀ (arg : Word) (k : Nat) (crc : BitVec 7) (s : State), s.opState = .busy (.ocrCapacity k) →
    exec (.cmdReadOcr arg crc) s = .next (match issue .readOcr arg s with
      | (.timeout, u) => initFailed 1 u
      | (.response r bs, u) =>
        if r.getLsbD 2 then initFailed 15 u
        else if (ofBe bs).getLsbD 31 then
          movedTo .step6 { u with
            capClass := some (if (ofBe bs).getLsbD 30 then .high else .standard)
            negState := .capacityClassified }
        else if k < u.cfg.ocrPollMax then issuesNext (.ocrCapacity (k + 1)) .readOcr 0 u
        else initFailed 6 u)

/-- A high-capacity card gets no command; a standard-capacity card is sent the set-block-length command with BLOCK_LEN_OP, whose response must be 0x00, else INIT ends with code 15 (a timeout with code 1). Success sets BLOCK_LEN to BLOCK_LEN_OP (512 by default), the clock to FAST with its request, NEG_STATE to Ready and SESSION_VALID to 1, deselects the card and ends with code 0. -/
def Obligations.ReadyStep : Prop :=
  (∀ s : State, Unhurried s → s.opState = .busy .step6 →
    (s.capClass = some .high → step s = .next (ready s))
    ∧ (s.capClass = some .standard → step s = .next (issuesNext .setBlockLen .setBlockLen s.cfg.blockLenOp s)))
  ∧ ∀ (arg : Word) (crc : BitVec 7) (s : State), s.opState = .busy .setBlockLen →
    exec (.cmdSetBlockLen arg crc) s = .next (match issue .setBlockLen arg s with
      | (.timeout, u) => initFailed 1 u
      | (.response r _, u) => if r = 0 then ready u else initFailed 15 u)

/-- From every state that keeps the invariant, a step leaves NEG_STATE alone, or INIT starts and it becomes PowerOn, or, inside a running INIT, it moves along one of the six passing transitions or the step raises and it moves from one of PowerOn to CapacityClassified to Failed. No other transition happens. -/
def Obligations.NegStateTransitions : Prop :=
  ∀ s t : State, Inv s → step s = .next t →
    t.negState = s.negState
    ∨ (s.opState = .idle ∧ t.opState = .busy .reset ∧ t.negState = .powerOn)
    ∨ ∃ p, s.opState = .busy p ∧ p.inInit = true
      ∧ ((s.negState, t.negState) ∈ [(NegState.powerOn, NegState.idle), (.idle, .voltageChecked),
          (.voltageChecked, .familyKnown), (.familyKnown, .negotiated), (.negotiated, .capacityClassified),
          (.capacityClassified, .ready)]
        ∨ (s.negState ∈ [NegState.powerOn, .idle, .voltageChecked, .familyKnown, .negotiated, .capacityClassified]
          ∧ t.negState = .failed ∧ t.opState = .idle ∧ t.resultKind ≠ some 0))

/-- From every state that keeps the invariant, a step that ends INIT with an error leaves NEG_STATE Failed, SESSION_VALID 0, the clock SLOW, BLOCK_LEN without a value, and the classification registers as the steps before the failing one wrote them, the generation also where step 2 itself failed its validation and the family where step 3 did; the last bus event is Deselect and the code is none of success. -/
def Obligations.InitFailureLeaves : Prop :=
  ∀ (s t : State) (p : Pos), Inv s → s.opState = .busy p → p.inInit = true → step s = .next t →
    t.opState = .idle → t.resultKind ≠ some 0 →
    t.negState = .failed ∧ t.sessionValid = false ∧ t.clockMode = .slow ∧ t.blockLen = none
    ∧ (t.generation = s.generation ∨ p = .ifCond ∧ t.generation = some .v2)
    ∧ (t.family = s.family ∨ p = .ocrFamily ∧ t.family = some .sd)
    ∧ t.capClass = s.capClass
    ∧ (∃ es, t.bus = s.bus ++ es ++ [.deselect])
    ∧ ∃ c ∈ [1, 2, 3, 4, 5, 6, 15], t.resultKind = some c

/-- A card that answers every attempt of the fallback loop busy gets exactly INIT_POLL_MAX packets and then INIT ends with code 6; one that answers every attempt of the SD loop busy gets exactly INIT_POLL_MAX pairs of packets and then the fallback loop begins. -/
def Obligations.InitAttemptBudgets : Prop :=
  ∀ (s : State) (rest : List Byte), s.cfg.valid = true → s.hostIn = [] →
    (∀ rs : List Byte, s.opState = .busy (.opCond 1) → s.pkt = frame (s.cfg.idx .sendOpCond) 0 →
      rs.length = s.cfg.initPollMax → (∀ r ∈ rs, r ≠ s.cfg.idleFill ∧ r.getLsbD 0 = true ∧ r.getLsbD 2 = false) → s.cardIn = rs ++ rest →
      runs s.cfg.initPollMax s = .next (initFailed 6 { s with
        cardIn := rest
        bus := s.bus ++ (rs.map fun r => (frame (s.cfg.idx .sendOpCond) 0).map .send ++ [.recv r]).flatten }))
    ∧ ∀ (harg : Word) (rs : List (Byte × Byte)), s.opState = .busy (.appPrefix harg 1) →
      s.pkt = frame (s.cfg.idx .appPrefix) 0 → rs.length = s.cfg.initPollMax →
      (∀ r ∈ rs, r.1 ≠ s.cfg.idleFill ∧ r.2 ≠ s.cfg.idleFill ∧ r.1 &&& 0xFE = 0 ∧ r.2.getLsbD 0 = true ∧ r.2.getLsbD 2 = false) →
      s.cardIn = (rs.map fun r => [r.1, r.2]).flatten ++ rest →
      ∃ t, runs (2 * s.cfg.initPollMax) s = .next t ∧ t.opState = .busy (.opCond 1)
        ∧ t.pkt = frame (s.cfg.idx .sendOpCond) 0 ∧ t.cardIn = rest ∧ t.negState = s.negState
        ∧ t.bus = s.bus ++ (rs.map fun r => (frame (s.cfg.idx .appPrefix) 0).map .send ++ [.recv r.1]
            ++ (frame (s.cfg.idx .appOpCond) harg).map .send ++ [.recv r.2]).flatten

/-- From every IDLE state with a valid configuration, a card that answers at once as a v2+ SD card with the capacity bit set is negotiated in nine steps after the start: the session is valid with the card's classes, the clock fast, code 0, and the bus shows exactly the six packets with HCS set and no set-block-length command. -/
def Obligations.InitNegotiatesSdHighCapacity : Prop :=
  ∀ (s : State) (r1 r2 r3 p q r4 : Byte) (e o o' rest : List Byte), s.opState = .idle → s.cfg.valid = true →
    s.hostIn = [] → e.length = 4 → o.length = 4 → o'.length = 4 →
    (∀ b ∈ [r1, r2, r3, p, q, r4], b ≠ s.cfg.idleFill) → r1.getLsbD 0 = true →
    r2.getLsbD 2 = false → (ofBe e).extractLsb' 0 8 = s.cfg.checkPattern → (ofBe e).extractLsb' 8 4 = s.cfg.vhsCode →
    r3.getLsbD 2 = false → (ofBe o).getLsbD s.cfg.ocrVwinBit.val = true →
    p &&& 0xFE = 0 → q.getLsbD 2 = false → q.getLsbD 0 = false →
    r4.getLsbD 2 = false → (ofBe o').getLsbD 31 = true → (ofBe o').getLsbD 30 = true →
    s.cardIn = [r1] ++ (r2 :: e) ++ (r3 :: o) ++ [p, q] ++ (r4 :: o') ++ rest →
    ∃ t, exec .init s = .next t ∧
      runs 9 t = .next { s with
        sessionValid := true
        family := some .sd
        generation := some .v2
        capClass := some .high
        blockLen := some s.cfg.blockLenOp
        clockMode := .fast
        negState := .ready
        resultKind := some 0
        pkt := []
        resp := []
        cardIn := rest
        bus := s.bus ++ [.setClock s.cfg.clkSlow, .select]
          ++ (frame (s.cfg.idx .reset) 0).map .send ++ [.recv r1]
          ++ (frame (s.cfg.idx .ifCond) ((s.cfg.vhsCode ++ s.cfg.checkPattern).setWidth 32)).map .send
          ++ (r2 :: e).map .recv
          ++ (frame (s.cfg.idx .readOcr) 0).map .send ++ (r3 :: o).map .recv
          ++ (frame (s.cfg.idx .appPrefix) 0).map .send ++ [.recv p]
          ++ (frame (s.cfg.idx .appOpCond) 0x40000000).map .send ++ [.recv q]
          ++ (frame (s.cfg.idx .readOcr) 0).map .send ++ (r4 :: o').map .recv
          ++ [.setClock s.cfg.clkFast, .deselect] }

/-- From every IDLE state with a valid configuration, a card that answers at once and sets the illegal bit on the voltage check and on the OCR read is negotiated in eight steps after the start through the fallback loop alone, with a standard-capacity session and the set-block-length command. -/
def Obligations.InitNegotiatesLegacyMmc : Prop :=
  ∀ (s : State) (r1 r2 r3 q : Byte) (e o rest : List Byte), s.opState = .idle → s.cfg.valid = true →
    s.hostIn = [] → e.length = 4 → o.length = 4 → (∀ b ∈ [r1, r2, r3, q, 0x00], b ≠ s.cfg.idleFill) →
    r1.getLsbD 0 = true → r2.getLsbD 2 = true → r3.getLsbD 2 = true → q.getLsbD 2 = false → q.getLsbD 0 = false →
    s.cardIn = [r1] ++ (r2 :: e) ++ (r3 :: o) ++ [q, 0x00] ++ rest →
    ∃ t, exec .init s = .next t ∧
      runs 8 t = .next { s with
        sessionValid := true
        family := some .mmc
        generation := some .legacy
        capClass := some .standard
        blockLen := some s.cfg.blockLenOp
        clockMode := .fast
        negState := .ready
        resultKind := some 0
        pkt := []
        resp := []
        cardIn := rest
        bus := s.bus ++ [.setClock s.cfg.clkSlow, .select]
          ++ (frame (s.cfg.idx .reset) 0).map .send ++ [.recv r1]
          ++ (frame (s.cfg.idx .ifCond) ((s.cfg.vhsCode ++ s.cfg.checkPattern).setWidth 32)).map .send
          ++ (r2 :: e).map .recv
          ++ (frame (s.cfg.idx .readOcr) 0).map .send ++ (r3 :: o).map .recv
          ++ (frame (s.cfg.idx .sendOpCond) 0).map .send ++ [.recv q]
          ++ (frame (s.cfg.idx .setBlockLen) s.cfg.blockLenOp).map .send ++ [.recv 0x00]
          ++ [.setClock s.cfg.clkFast, .deselect] }

/-- After Issue, response 0x00 lets a read await its token and a write frame its block, or, with no block left, ends a single-block operation or begins the stop sequence; any other response ends the operation without a stop sequence, with code 9 if bit 5 is set, else 10 if bit 6 is set, else 15, and a timeout with code 1. A failure clears the session. -/
def Obligations.BlockCommandResults : Prop :=
  ∀ (arg : Word) (crc : BitVec 7) (s : State) (m : Bool) (j n : Nat),
    (s.opState = .busy (.readCmd ⟨m, j, n⟩) →
      exec (if m then .cmdReadMulti arg crc else .cmdReadSingle arg crc) s
        = .next (match issue (if m then .readMulti else .readSingle) arg s with
          | (.timeout, u) => ioFailed 1 u
          | (.response r _, u) => if r = 0 then readOn ⟨m, j, n⟩ u else ioFailed (cmdError r) u))
    ∧ (s.opState = .busy (.writeCmd ⟨m, j, n⟩) →
      exec (if m then .cmdWriteMulti arg crc else .cmdWriteSingle arg crc) s
        = .next (match issue (if m then .writeMulti else .writeSingle) arg s with
          | (.timeout, u) => ioFailed 1 u
          | (.response r _, u) => if r = 0 then writeOn ⟨m, j, n⟩ u else ioFailed (cmdError r) u))

/-- At the token poll of a read, the next answer is a start token if it is the one the read waits for, else an error token if the mask takes all its bits away, else it is skipped: the next attempt, or after TOKEN_POLL_MAX attempts a response timeout of the block. -/
def Obligations.TokenPoll : Prop :=
  ∀ (s : State) (x : Xfer) (k : Nat), Unhurried s → s.opState = .busy (.readToken x k) →
    let b := answer s 0
    let T := if x.multi then s.cfg.tokStartMultiRd else s.cfg.tokStartSingle
    (b = T → step s = exec (if x.multi then .tokStartMultiRd else .tokStartSingle) (received 1 s))
    ∧ (b ≠ T → b &&& s.cfg.errTokenMask = 0 → step s = exec (.errorToken b) (received 1 s))
    ∧ (b ≠ T → b &&& s.cfg.errTokenMask ≠ 0 →
      step s = .next (if k < s.cfg.tokenPollMax then movedTo (.readToken x (k + 1)) (received 1 s)
        else readFailed x .responseTimeout (received 1 s)))

/-- An error token fails the block: address out of bounds if bit 3 is set, else card ECC failure if bit 2 is, else card controller failure if bit 1 is, else unknown protocol fault; a single-block read ends with the code, a multi-block read frames the stop command next and keeps the error. -/
def Obligations.ErrorTokenResult : Prop :=
  ∀ (b : Byte) (s : State) (x : Xfer) (k : Nat), s.opState = .busy (.readToken x k) →
    exec (.errorToken b) s = .next (readFailed x (tokenError b) s)

/-- After its start token a block's payload is read by count into TB at the block's offset, in order, then two CRC bytes; if they are CRC16 of the payload, high byte first, the read goes on at the next block or stops or ends, and otherwise the block fails with the CRC error, and nothing is said of the bytes of TB it wrote. That the bytes of TB outside the block stay where it fails is the model's choice (log 8; R219 and U7 leave TB open after a failed read). No other register changes. -/
def Obligations.StartTokenReceivesBlock : Prop :=
  ∀ (s : State) (m : Bool) (j n k : Nat) (bl : Word), s.opState = .busy (.readToken ⟨m, j, n⟩ k) →
    s.blockLen = some bl →
    let p := (List.range bl.toNat).map (answer s)
    let u := received (bl.toNat + 2) s
    (answer s bl.toNat ++ answer s (bl.toNat + 1) = crc16 p →
      exec (if m then .tokStartMultiRd else .tokStartSingle) s
        = .next (readOn ⟨m, j + 1, n⟩ { u with tb := Mem.write s.tb (j * bl.toNat) p }))
    ∧ (answer s bl.toNat ++ answer s (bl.toNat + 1) ≠ crc16 p → ∃ tb : List Host.Cell,
      exec (if m then .tokStartMultiRd else .tokStartSingle) s
        = .next (readFailed ⟨m, j, n⟩ .blockCrcInvalid { u with tb := tb })
      ∧ ∀ a, a < j * bl.toNat ∨ j * bl.toNat + bl.toNat ≤ a → Mem.read tb a = Mem.read s.tb a)

/-- At a block of a write the start token, the block's bytes of TB in order and their CRC16, high byte first, are sent, and the data response is polled next; nothing else changes. Where a byte of the block holds no value the step is a fault that names TB (R22, R33 and U6 as log 5 reads them for a block operation). -/
def Obligations.SentFrame : Prop :=
  ∀ (s : State) (m : Bool) (j n : Nat) (bl : Word), s.opState = .busy (.writeFrame ⟨m, j, n⟩) →
    s.blockLen = some bl →
    (∀ p : List Byte, p.length = bl.toNat → (∀ i (h : i < p.length), Mem.read s.tb (j * bl.toNat + i) = some p[i]) →
      exec (if m then .tokStartMultiWr else .tokStartSingle) s
        = .next (movedTo (.dataResp ⟨m, j, n⟩ 1) { s with
            bus := s.bus ++ (blockFrame (if m then s.cfg.tokStartMultiWr else s.cfg.tokStartSingle) p).map .send }))
    ∧ ((∃ i, i < bl.toNat ∧ Mem.read s.tb (j * bl.toNat + i) = none) →
      exec (if m then .tokStartMultiWr else .tokStartSingle) s = .fault (.noValue .tb))

/-- At the data-response poll the first answer that is not IDLE_FILL is taken as the token and the busy-wait begins; IDLE_FILL is the next attempt, or after DRESP_POLL_MAX attempts the block fails with a response timeout and no busy-wait. -/
def Obligations.DataResponsePoll : Prop :=
  ∀ (s : State) (x : Xfer) (k : Nat), Unhurried s → s.opState = .busy (.dataResp x k) →
    (answer s 0 ≠ s.cfg.idleFill → step s = .next (movedTo (.writeBusy x (answer s 0)) (received 1 s)))
    ∧ (answer s 0 = s.cfg.idleFill →
      step s = .next (if k < s.cfg.drespPollMax then movedTo (.dataResp x (k + 1)) (received 1 s)
        else writeFailed x .responseTimeout (received 1 s)))

/-- At each of the three busy-waits one byte is received: IDLE_FILL ends the wait, and then the data response is decoded or the operation ends, with the kept error or with success; any other byte leaves the block where it is. -/
def Obligations.BusyWaitStep : Prop :=
  ∀ s : State, Unhurried s →
    (∀ x b, s.opState = .busy (.writeBusy x b) →
      step s = .next (if answer s 0 = s.cfg.idleFill then movedTo (.writeVerdict x b) (received 1 s) else received 1 s))
    ∧ (∀ err, s.opState = .busy (.readStopBusy err) →
      step s = .next (if answer s 0 = s.cfg.idleFill then stopped err (received 1 s) else received 1 s))
    ∧ ∀ err, s.opState = .busy (.writeStopBusy err) →
      step s = .next (if answer s 0 = s.cfg.idleFill then stopped err (received 1 s) else received 1 s)

/-- After the busy-wait the low five bits of the data response decide: 0x05 lets the write go on at the next block, stop or end; 0x0B fails the block with the CRC error, 0x0D with the controller error, anything else with the unknown fault. Nothing else changes. -/
def Obligations.DataResponseResults : Prop :=
  ∀ (hi : BitVec 3) (s : State) (x : Xfer) (b : Byte), s.opState = .busy (.writeVerdict x b) →
    exec (.dataRespAccepted hi) s = .next (writeOn ⟨x.multi, x.block + 1, x.count⟩ s)
    ∧ exec (.dataRespCrcRejected hi) s = .next (writeFailed x .blockCrcInvalid s)
    ∧ exec (.dataRespWriteRejected hi) s = .next (writeFailed x .cardControllerFailure s)
    ∧ (Unhurried s →
      step s = .next (if b &&& 0x1F = 0x05 then writeOn ⟨x.multi, x.block + 1, x.count⟩ s
        else if b &&& 0x1F = 0x0B then writeFailed x .blockCrcInvalid s
        else if b &&& 0x1F = 0x0D then writeFailed x .cardControllerFailure s
        else writeFailed x .unknownProtocolFault s))

/-- The stop command of a multi-block read is issued, its response is not examined, and the busy-wait begins even after a timeout; a block error is kept and wins over that timeout. A multi-block write sends the stop token alone, even after a block error, and its busy-wait begins. -/
def Obligations.StopSequences : Prop :=
  (∀ (arg : Word) (crc : BitVec 7) (err : Option ErrorKind) (s : State), s.opState = .busy (.readStop err) →
    exec (.cmdStopTransmission arg crc) s = .next (match issue .stopTransmission arg s with
      | (.timeout, u) => movedTo (.readStopBusy (some (err.getD .responseTimeout))) u
      | (.response _ _, u) => movedTo (.readStopBusy err) u))
  ∧ ∀ (err : Option ErrorKind) (s : State), s.opState = .busy (.writeStop err) →
    exec .tokStopMultiWr s
      = .next (movedTo (.writeStopBusy err) { s with bus := s.bus ++ [.send s.cfg.tokStopMultiWr] })

/-- In every session, with an aligned address the card can be sent, when the card answers the command with 0x00, then the start token inside the budget, then BLOCK_LEN bytes and their CRC16, READ_BLOCK ends with code 0 and the payload in TB, every other byte of TB as before; the bus shows the one packet and the answers, between Select and Deselect; no other register changes. -/
def Obligations.ReadBlockRuns : Prop :=
  ∀ (s : State) (bl wa : Word) (a : Nat) (cap : CapClass) (m j : Nat) (p rest : List Byte), SessionAt bl a cap s → s.cfg.valid = true →
    bl ≠ 0 → s.hostIn = [] → a % bl.toNat = 0 → wireArg cap bl a = some wa → p.length = bl.toNat →
    m < s.cfg.respPollMax → j < s.cfg.tokenPollMax →
    let got := List.replicate m s.cfg.idleFill ++ [0x00] ++ List.replicate j s.cfg.idleFill ++ blockFrame s.cfg.tokStartSingle p
    s.cardIn = got ++ rest →
    ∃ t, exec .readBlock s = .next t ∧
      runs (j + 2) t = .next { s with
        tb := Mem.write s.tb 0 p
        resultKind := some 0
        pkt := []
        resp := []
        cardIn := rest
        bus := s.bus ++ [.select] ++ (frame (s.cfg.idx .readSingle) wa).map .send
          ++ got.map .recv ++ [.deselect] }

/-- In every session, with an aligned address the card can be sent and BLOCK_LEN bytes in TB, when the card answers the command with 0x00, then a data response inside the budget, then busy bytes and the idle fill, WRITE_BLOCK sends the token, the bytes of TB and their CRC16 and ends with the code of the response: 0 and the session kept if it accepts, else 12, 14 or 15 and the session invalid. TB and every other register stay as they are. -/
def Obligations.WriteBlockRuns : Prop :=
  ∀ (s : State) (bl wa : Word) (a : Nat) (cap : CapClass) (m j : Nat) (d : Byte) (p busy rest : List Byte),
    SessionAt bl a cap s → s.cfg.valid = true →
    bl ≠ 0 → s.hostIn = [] → a % bl.toNat = 0 → wireArg cap bl a = some wa →
    Mem.readRange s.tb 0 bl.toNat = some p → m < s.cfg.respPollMax → j < s.cfg.drespPollMax → d ≠ s.cfg.idleFill →
    (∀ b ∈ busy, b ≠ s.cfg.idleFill) →
    let verdict : BitVec 4 :=
      if d &&& 0x1F = 0x05 then 0 else if d &&& 0x1F = 0x0B then 12 else if d &&& 0x1F = 0x0D then 14 else 15
    s.cardIn = List.replicate m s.cfg.idleFill ++ [0x00] ++ List.replicate j s.cfg.idleFill ++ [d] ++ busy ++ [s.cfg.idleFill] ++ rest →
    ∃ t, exec .writeBlock s = .next t ∧
      runs (j + busy.length + 5) t = .next { s with
        sessionValid := decide (verdict = 0)
        resultKind := some verdict
        pkt := []
        resp := []
        cardIn := rest
        bus := s.bus ++ [.select] ++ (frame (s.cfg.idx .writeSingle) wa).map .send
          ++ (List.replicate m s.cfg.idleFill ++ [0x00]).map .recv
          ++ (blockFrame s.cfg.tokStartSingle p).map .send
          ++ (List.replicate j s.cfg.idleFill ++ [d] ++ busy ++ [s.cfg.idleFill]).map .recv ++ [.deselect] }

/-- In every session, with aligned operands the card can be sent whose length is that of the blocks, when the card answers the command with 0x00, sends each block at once, answers the stop command and leaves busy, READ_BLOCKS ends with code 0 and the blocks one after another in TB, every byte beyond them as before; the bus shows the two packets and the answers; zero blocks are the command and the stop sequence. -/
def Obligations.ReadBlocksRuns : Prop :=
  ∀ (s : State) (bl wa : Word) (a l : Nat) (cap : CapClass) (blocks : List (List Byte)) (r : Byte) (busy rest : List Byte),
    SessionAt bl a cap s → s.cfg.valid = true →
    bl ≠ 0 → s.hostIn = [] → a % bl.toNat = 0 → wireArg cap bl a = some wa →
    s.reqLen = some l → l = blocks.length * bl.toNat → (∀ p ∈ blocks, p.length = bl.toNat) → r ≠ s.cfg.idleFill →
    (∀ b ∈ busy, b ≠ s.cfg.idleFill) →
    let got := (blocks.map (blockFrame s.cfg.tokStartMultiRd)).flatten
    s.cardIn = [0x00] ++ got ++ [r] ++ busy ++ [s.cfg.idleFill] ++ rest →
    ∃ t u, exec .readBlocks s = .next t ∧ runs (blocks.length + busy.length + 3) t = .next u
      ∧ u = { s with
        tb := u.tb
        resultKind := some 0
        pkt := []
        resp := []
        cardIn := rest
        bus := s.bus ++ [.select] ++ (frame (s.cfg.idx .readMulti) wa).map .send ++ [.recv 0x00]
          ++ got.map .recv ++ (frame (s.cfg.idx .stopTransmission) 0).map .send
          ++ ([r] ++ busy ++ [s.cfg.idleFill]).map .recv ++ [.deselect] }
      ∧ Mem.readRange u.tb 0 l = some blocks.flatten
      ∧ ∀ k, l ≤ k → Mem.read u.tb k = Mem.read s.tb k

/-- In every session, with aligned operands the card can be sent whose length is that of the blocks in TB, when the card answers the command with 0x00 and accepts each block at once, WRITE_BLOCKS sends one frame per block with the multi-block token, then the stop token, waits, and ends with code 0; TB and every other register stay as they are. -/
def Obligations.WriteBlocksRuns : Prop :=
  ∀ (s : State) (bl wa : Word) (a l : Nat) (cap : CapClass) (blocks : List (List Byte)) (ds : List Byte) (busy rest : List Byte),
    SessionAt bl a cap s → s.cfg.valid = true →
    bl ≠ 0 → s.hostIn = [] → a % bl.toNat = 0 → wireArg cap bl a = some wa →
    s.reqLen = some l → l = blocks.length * bl.toNat → (∀ p ∈ blocks, p.length = bl.toNat) →
    Mem.readRange s.tb 0 l = some blocks.flatten → ds.length = blocks.length →
    (∀ d ∈ ds, d ≠ s.cfg.idleFill ∧ d &&& 0x1F = 0x05) → (∀ b ∈ busy, b ≠ s.cfg.idleFill) →
    s.cardIn = [0x00] ++ (ds.map fun d => [d, s.cfg.idleFill]).flatten ++ busy ++ [s.cfg.idleFill] ++ rest →
    ∃ t, exec .writeBlocks s = .next t ∧
      runs (4 * blocks.length + busy.length + 3) t = .next { s with
        resultKind := some 0
        pkt := []
        resp := []
        cardIn := rest
        bus := s.bus ++ [.select] ++ (frame (s.cfg.idx .writeMulti) wa).map .send ++ [.recv 0x00]
          ++ (List.zipWith (fun p d => (blockFrame s.cfg.tokStartMultiWr p).map BusEvent.send ++ [.recv d, .recv s.cfg.idleFill])
              blocks ds).flatten
          ++ [.send s.cfg.tokStopMultiWr] ++ (busy ++ [s.cfg.idleFill]).map .recv ++ [.deselect] }

/-- A host's start runs the operation its code decodes to; at a position that issues a command a step runs the command that PKT decodes to; at a token poll, on the state after the receive, the token the answer decodes to; at a frame or a stop token the token that is sent; after a busy-wait the data response. How the pieces are fetched is the model's (log 1, log 3). -/
def Obligations.StepRunsDecoded : Prop :=
  ∀ (s : State) (i : Instr),
    (∀ rest op, s.opState = .idle → s.hostIn = .start :: rest → s.reqOp = some op →
      decode s.cfg .hostOp [op.setWidth 8] = .ok i → step s = exec i { s with hostIn := rest })
    ∧ (∀ p, Unhurried s → s.opState = .busy p → Issues p → decode s.cfg .packet s.pkt = .ok i → step s = exec i s)
    ∧ (∀ x k, Unhurried s → s.opState = .busy (.readToken x k) →
      decode s.cfg (.rxToken x.multi) [answer s 0] = .ok i → step s = exec i (received 1 s))
    ∧ (∀ x, Unhurried s → s.opState = .busy (.writeFrame x) →
      decode s.cfg .txToken [if x.multi then s.cfg.tokStartMultiWr else s.cfg.tokStartSingle] = .ok i →
      step s = exec i s)
    ∧ (∀ err, Unhurried s → s.opState = .busy (.writeStop err) →
      decode s.cfg .txToken [s.cfg.tokStopMultiWr] = .ok i → step s = exec i s)
    ∧ ∀ x b, Unhurried s → s.opState = .busy (.writeVerdict x b) → decode s.cfg .dataResp [b] = .ok i →
      step s = exec i s

/-- The state after reset keeps the invariant of the block. -/
def Obligations.InvHoldsAtReset : Prop :=
  Inv State.reset

/-- From every state that keeps it, every step that gives a next state keeps it: the configuration is valid, so BLOCK_LEN_OP is 512; a valid session implies Ready, block length BLOCK_LEN_OP, FAST and all classes known; TB is canonical and the operands have ADDR_W bits; bytes move only between Select and Deselect and the card is selected exactly while an operation runs; PKT and RESP are empty between operations; the out-of-scope codes are never reported; and each position of a procedure has the registers, counters and packet the steps before it give. -/
def Obligations.InvKeptByEveryStep : Prop :=
  ∀ s t : State, Inv s → step s = .next t → Inv t

/-- From every state that keeps the invariant, whatever the card answers, the block's own next step of a running operation gives a next state, neither a fault nor a refusal, except at a write that is about to send a block some byte of which holds no value in TB: there it is the fault that names TB. That exception rests on R22 and U6 as log 5 reads them for a block operation, since R33 says a block procedure never makes such a read. -/
def Obligations.RunningOperationNeverStops : Prop :=
  ∀ (s : State) (p : Pos), Inv s → Unhurried s → s.opState = .busy p →
    (∃ t, step s = .next t)
    ∨ ∃ x i, p = .writeFrame x ∧ i < s.cfg.blockLenOp.toNat
      ∧ Mem.read s.tb (x.block * s.cfg.blockLenOp.toNat + i) = none ∧ step s = .fault (.noValue .tb)

/-- From every state that keeps the invariant, inside an operation that contains no busy-wait, some number of steps leads to an IDLE state with a result code the operation can have, whatever bytes the card gives. -/
def Obligations.OperationsWithoutBusyWaitEnd : Prop :=
  ∀ (s : State) (p : Pos), Inv s → s.hostIn = [] → s.opState = .busy p → BusyWaitFree p →
    ∃ n t, runs n s = .next t ∧ t.opState = .idle ∧ ∃ c ∈ resultCodes p, t.resultKind = some c

/-- As long as the card gives no IDLE_FILL at a busy-wait, every step receives one byte and changes nothing else: OP_STATE stays BUSY and RESULT_KIND is not written. At a position of INIT, READ_STATUS or READ_BLOCK, and at every other position that is no busy-wait, every step of the block moves the position or ends the operation. -/
def Obligations.BusyWaitHangs : Prop :=
  (∀ (n : Nat) (s : State) (p : Pos), Unhurried s → s.opState = .busy p → BusyWaits p →
    (∀ i, i < n → answer s i ≠ s.cfg.idleFill) → runs n s = .next (received n s))
  ∧ ∀ (s t : State) (p : Pos), Unhurried s → s.opState = .busy p → BusyWaitFree p ∨ ¬ BusyWaits p →
    step s = .next t → t.opState ≠ s.opState

/-- From every state that keeps the invariant, SESSION_VALID becomes 1 only in the step that ends INIT with success and Ready, and becomes 0 only when INIT starts or in the step that ends a block operation with an error after its Select; while it is 0 each of the four block operations is refused. That those steps do write it is in InitStarts, ReadyStep and BlockCommandResults. -/
def Obligations.SessionChanges : Prop :=
  (∀ s t : State, Inv s → step s = .next t →
    (s.sessionValid = false → t.sessionValid = true →
      ∃ p, s.opState = .busy p ∧ p.inInit = true ∧ t.opState = .idle ∧ t.negState = .ready ∧ t.resultKind = some 0)
    ∧ (s.sessionValid = true → t.sessionValid = false →
      (∃ rest, s.opState = .idle ∧ s.hostIn = .start :: rest ∧ s.reqOp = some 1 ∧ t.opState = .busy .reset)
      ∨ ∃ p, s.opState = .busy p ∧ (p.inRead = true ∨ p.inWrite = true) ∧ t.opState = .idle
        ∧ t.resultKind ≠ some 0))
  ∧ ∀ s : State, s.opState = .idle → s.sessionValid = false → ∀ i ∈ blockOps, exec i s = .refused .noSession

/-- From every state that keeps the invariant, a step of a running block operation leaves FAMILY, GENERATION, CAP_CLASS, BLOCK_LEN, CLOCK_MODE, NEG_STATE, RESULT_VALUE, the request registers and the parameters alone; it leaves every byte of TB alone except, at the token poll of a read, the BLOCK_LEN_OP bytes of the block that is read. That this holds of TB also where the read fails is the model's choice (log 8; R219 leaves TB open after a failed read). -/
def Obligations.BlockIOLeaves : Prop :=
  ∀ (s t : State) (p : Pos), Inv s → s.opState = .busy p → (p.inRead = true ∨ p.inWrite = true) → step s = .next t →
    t.family = s.family ∧ t.generation = s.generation ∧ t.capClass = s.capClass ∧ t.blockLen = s.blockLen
    ∧ t.clockMode = s.clockMode ∧ t.negState = s.negState ∧ t.resultValue = s.resultValue
    ∧ t.reqOp = s.reqOp ∧ t.reqAddr = s.reqAddr ∧ t.reqLen = s.reqLen ∧ t.cfg = s.cfg
    ∧ ∀ a, (∀ x k, p = .readToken x k → a < x.block * s.cfg.blockLenOp.toNat ∨ (x.block + 1) * s.cfg.blockLenOp.toNat ≤ a) →
      Mem.read t.tb a = Mem.read s.tb a

/-- A step of a running INIT leaves TB, the request registers, RESULT_VALUE and the parameters alone; a step of a running READ_STATUS leaves TB, the request registers, every session register, CLOCK_MODE, NEG_STATE and the parameters alone. From every state. -/
def Obligations.NegotiationAndStatusLeave : Prop :=
  ∀ (s t : State) (p : Pos), s.opState = .busy p → step s = .next t →
    (p.inInit = true ∨ p = .sendStatus →
      t.tb = s.tb ∧ t.reqOp = s.reqOp ∧ t.reqAddr = s.reqAddr ∧ t.reqLen = s.reqLen ∧ t.cfg = s.cfg)
    ∧ (p.inInit = true → t.resultValue = s.resultValue)
    ∧ (p = .sendStatus → t.sessionValid = s.sessionValid ∧ t.family = s.family ∧ t.generation = s.generation
      ∧ t.capClass = s.capClass ∧ t.blockLen = s.blockLen ∧ t.clockMode = s.clockMode ∧ t.negState = s.negState)

/-- Replacing REQ_ADDR, REQ_LEN and TB changes nothing of a step inside INIT or READ_STATUS, nor of the start of INIT, READ_STATUS or an accessor, but those operands themselves. -/
def Obligations.OperandsNotNamedAreIgnored : Prop :=
  ∀ (s : State) (addr len : Option Nat) (tb : List Host.Cell),
    (∀ p, Unhurried s → s.opState = .busy p → (p.inInit = true ∨ p = .sendStatus) →
      step (withOperands addr len tb s) = mapNext (withOperands addr len tb) (step s))
    ∧ ∀ i ∈ [Instr.init, .readStatus, .getIsMmc, .getBlockLen, .getIsHc],
      exec i (withOperands addr len tb s) = mapNext (withOperands addr len tb) (exec i s)

/-- From every state that keeps the invariant, a step that ends a running operation writes one of the codes R263 gives that operation, and the last bus event it makes is Deselect; a step that does not end it leaves RESULT_KIND alone. -/
def Obligations.ResultCodesOfOperations : Prop :=
  ∀ (s t : State) (p : Pos), Inv s → s.opState = .busy p → step s = .next t →
    (t.opState = .idle → (∃ c ∈ resultCodes p, t.resultKind = some c) ∧ t.bus.getLast? = some .deselect)
    ∧ (t.opState ≠ .idle → t.resultKind = s.resultKind)
end

