-- ==== Sys2Proof/Laws/State.lean ====
section
/-! SUPPORT. One lemma per field per shared update: no later proof unfolds a record update. -/

namespace Sys2Proof.Machine

/-! `sendAll` -/

@[simp] theorem sendAll_cfg (bs : List Byte) (s : State) : (sendAll bs s).cfg = s.cfg := rfl
@[simp] theorem sendAll_sessionValid (bs : List Byte) (s : State) : (sendAll bs s).sessionValid = s.sessionValid := rfl
@[simp] theorem sendAll_family (bs : List Byte) (s : State) : (sendAll bs s).family = s.family := rfl
@[simp] theorem sendAll_generation (bs : List Byte) (s : State) : (sendAll bs s).generation = s.generation := rfl
@[simp] theorem sendAll_capClass (bs : List Byte) (s : State) : (sendAll bs s).capClass = s.capClass := rfl
@[simp] theorem sendAll_blockLen (bs : List Byte) (s : State) : (sendAll bs s).blockLen = s.blockLen := rfl
@[simp] theorem sendAll_clockMode (bs : List Byte) (s : State) : (sendAll bs s).clockMode = s.clockMode := rfl
@[simp] theorem sendAll_negState (bs : List Byte) (s : State) : (sendAll bs s).negState = s.negState := rfl
@[simp] theorem sendAll_opState (bs : List Byte) (s : State) : (sendAll bs s).opState = s.opState := rfl
@[simp] theorem sendAll_reqOp (bs : List Byte) (s : State) : (sendAll bs s).reqOp = s.reqOp := rfl
@[simp] theorem sendAll_reqAddr (bs : List Byte) (s : State) : (sendAll bs s).reqAddr = s.reqAddr := rfl
@[simp] theorem sendAll_reqLen (bs : List Byte) (s : State) : (sendAll bs s).reqLen = s.reqLen := rfl
@[simp] theorem sendAll_resultKind (bs : List Byte) (s : State) : (sendAll bs s).resultKind = s.resultKind := rfl
@[simp] theorem sendAll_resultValue (bs : List Byte) (s : State) : (sendAll bs s).resultValue = s.resultValue := rfl
@[simp] theorem sendAll_tb (bs : List Byte) (s : State) : (sendAll bs s).tb = s.tb := rfl
@[simp] theorem sendAll_pkt (bs : List Byte) (s : State) : (sendAll bs s).pkt = s.pkt := rfl
@[simp] theorem sendAll_resp (bs : List Byte) (s : State) : (sendAll bs s).resp = s.resp := rfl
@[simp] theorem sendAll_bus (bs : List Byte) (s : State) : (sendAll bs s).bus = s.bus ++ bs.map .send := rfl
@[simp] theorem sendAll_cardIn (bs : List Byte) (s : State) : (sendAll bs s).cardIn = s.cardIn := rfl
@[simp] theorem sendAll_draws (bs : List Byte) (s : State) : (sendAll bs s).draws = s.draws := rfl
@[simp] theorem sendAll_hostIn (bs : List Byte) (s : State) : (sendAll bs s).hostIn = s.hostIn := rfl
@[simp] theorem sendAll_hostOut (bs : List Byte) (s : State) : (sendAll bs s).hostOut = s.hostOut := rfl
@[simp] theorem sendAll_refusedActs (bs : List Byte) (s : State) : (sendAll bs s).refusedActs = s.refusedActs := rfl

/-! `setPos` -/

@[simp] theorem setPos_cfg (p : Pos) (s : State) : (setPos p s).cfg = s.cfg := rfl
@[simp] theorem setPos_sessionValid (p : Pos) (s : State) : (setPos p s).sessionValid = s.sessionValid := rfl
@[simp] theorem setPos_family (p : Pos) (s : State) : (setPos p s).family = s.family := rfl
@[simp] theorem setPos_generation (p : Pos) (s : State) : (setPos p s).generation = s.generation := rfl
@[simp] theorem setPos_capClass (p : Pos) (s : State) : (setPos p s).capClass = s.capClass := rfl
@[simp] theorem setPos_blockLen (p : Pos) (s : State) : (setPos p s).blockLen = s.blockLen := rfl
@[simp] theorem setPos_clockMode (p : Pos) (s : State) : (setPos p s).clockMode = s.clockMode := rfl
@[simp] theorem setPos_negState (p : Pos) (s : State) : (setPos p s).negState = s.negState := rfl
@[simp] theorem setPos_opState (p : Pos) (s : State) : (setPos p s).opState = .busy p := rfl
@[simp] theorem setPos_reqOp (p : Pos) (s : State) : (setPos p s).reqOp = s.reqOp := rfl
@[simp] theorem setPos_reqAddr (p : Pos) (s : State) : (setPos p s).reqAddr = s.reqAddr := rfl
@[simp] theorem setPos_reqLen (p : Pos) (s : State) : (setPos p s).reqLen = s.reqLen := rfl
@[simp] theorem setPos_resultKind (p : Pos) (s : State) : (setPos p s).resultKind = s.resultKind := rfl
@[simp] theorem setPos_resultValue (p : Pos) (s : State) : (setPos p s).resultValue = s.resultValue := rfl
@[simp] theorem setPos_tb (p : Pos) (s : State) : (setPos p s).tb = s.tb := rfl
@[simp] theorem setPos_pkt (p : Pos) (s : State) : (setPos p s).pkt = s.pkt := rfl
@[simp] theorem setPos_resp (p : Pos) (s : State) : (setPos p s).resp = s.resp := rfl
@[simp] theorem setPos_bus (p : Pos) (s : State) : (setPos p s).bus = s.bus := rfl
@[simp] theorem setPos_cardIn (p : Pos) (s : State) : (setPos p s).cardIn = s.cardIn := rfl
@[simp] theorem setPos_draws (p : Pos) (s : State) : (setPos p s).draws = s.draws := rfl
@[simp] theorem setPos_hostIn (p : Pos) (s : State) : (setPos p s).hostIn = s.hostIn := rfl
@[simp] theorem setPos_hostOut (p : Pos) (s : State) : (setPos p s).hostOut = s.hostOut := rfl
@[simp] theorem setPos_refusedActs (p : Pos) (s : State) : (setPos p s).refusedActs = s.refusedActs := rfl

/-! `goCmd` -/

@[simp] theorem goCmd_cfg (p : Pos) (k : Cmd) (a : Word) (s : State) : (goCmd p k a s).cfg = s.cfg := rfl
@[simp] theorem goCmd_sessionValid (p : Pos) (k : Cmd) (a : Word) (s : State) : (goCmd p k a s).sessionValid = s.sessionValid := rfl
@[simp] theorem goCmd_family (p : Pos) (k : Cmd) (a : Word) (s : State) : (goCmd p k a s).family = s.family := rfl
@[simp] theorem goCmd_generation (p : Pos) (k : Cmd) (a : Word) (s : State) : (goCmd p k a s).generation = s.generation := rfl
@[simp] theorem goCmd_capClass (p : Pos) (k : Cmd) (a : Word) (s : State) : (goCmd p k a s).capClass = s.capClass := rfl
@[simp] theorem goCmd_blockLen (p : Pos) (k : Cmd) (a : Word) (s : State) : (goCmd p k a s).blockLen = s.blockLen := rfl
@[simp] theorem goCmd_clockMode (p : Pos) (k : Cmd) (a : Word) (s : State) : (goCmd p k a s).clockMode = s.clockMode := rfl
@[simp] theorem goCmd_negState (p : Pos) (k : Cmd) (a : Word) (s : State) : (goCmd p k a s).negState = s.negState := rfl
@[simp] theorem goCmd_opState (p : Pos) (k : Cmd) (a : Word) (s : State) : (goCmd p k a s).opState = .busy p := rfl
@[simp] theorem goCmd_reqOp (p : Pos) (k : Cmd) (a : Word) (s : State) : (goCmd p k a s).reqOp = s.reqOp := rfl
@[simp] theorem goCmd_reqAddr (p : Pos) (k : Cmd) (a : Word) (s : State) : (goCmd p k a s).reqAddr = s.reqAddr := rfl
@[simp] theorem goCmd_reqLen (p : Pos) (k : Cmd) (a : Word) (s : State) : (goCmd p k a s).reqLen = s.reqLen := rfl
@[simp] theorem goCmd_resultKind (p : Pos) (k : Cmd) (a : Word) (s : State) : (goCmd p k a s).resultKind = s.resultKind := rfl
@[simp] theorem goCmd_resultValue (p : Pos) (k : Cmd) (a : Word) (s : State) : (goCmd p k a s).resultValue = s.resultValue := rfl
@[simp] theorem goCmd_tb (p : Pos) (k : Cmd) (a : Word) (s : State) : (goCmd p k a s).tb = s.tb := rfl
@[simp] theorem goCmd_pkt (p : Pos) (k : Cmd) (a : Word) (s : State) : (goCmd p k a s).pkt = frame (s.cfg.idx k) a := rfl
@[simp] theorem goCmd_resp (p : Pos) (k : Cmd) (a : Word) (s : State) : (goCmd p k a s).resp = s.resp := rfl
@[simp] theorem goCmd_bus (p : Pos) (k : Cmd) (a : Word) (s : State) : (goCmd p k a s).bus = s.bus := rfl
@[simp] theorem goCmd_cardIn (p : Pos) (k : Cmd) (a : Word) (s : State) : (goCmd p k a s).cardIn = s.cardIn := rfl
@[simp] theorem goCmd_draws (p : Pos) (k : Cmd) (a : Word) (s : State) : (goCmd p k a s).draws = s.draws := rfl
@[simp] theorem goCmd_hostIn (p : Pos) (k : Cmd) (a : Word) (s : State) : (goCmd p k a s).hostIn = s.hostIn := rfl
@[simp] theorem goCmd_hostOut (p : Pos) (k : Cmd) (a : Word) (s : State) : (goCmd p k a s).hostOut = s.hostOut := rfl
@[simp] theorem goCmd_refusedActs (p : Pos) (k : Cmd) (a : Word) (s : State) : (goCmd p k a s).refusedActs = s.refusedActs := rfl

/-! `select` -/

@[simp] theorem select_cfg (s : State) : (select s).cfg = s.cfg := rfl
@[simp] theorem select_sessionValid (s : State) : (select s).sessionValid = s.sessionValid := rfl
@[simp] theorem select_family (s : State) : (select s).family = s.family := rfl
@[simp] theorem select_generation (s : State) : (select s).generation = s.generation := rfl
@[simp] theorem select_capClass (s : State) : (select s).capClass = s.capClass := rfl
@[simp] theorem select_blockLen (s : State) : (select s).blockLen = s.blockLen := rfl
@[simp] theorem select_clockMode (s : State) : (select s).clockMode = s.clockMode := rfl
@[simp] theorem select_negState (s : State) : (select s).negState = s.negState := rfl
@[simp] theorem select_opState (s : State) : (select s).opState = s.opState := rfl
@[simp] theorem select_reqOp (s : State) : (select s).reqOp = s.reqOp := rfl
@[simp] theorem select_reqAddr (s : State) : (select s).reqAddr = s.reqAddr := rfl
@[simp] theorem select_reqLen (s : State) : (select s).reqLen = s.reqLen := rfl
@[simp] theorem select_resultKind (s : State) : (select s).resultKind = s.resultKind := rfl
@[simp] theorem select_resultValue (s : State) : (select s).resultValue = s.resultValue := rfl
@[simp] theorem select_tb (s : State) : (select s).tb = s.tb := rfl
@[simp] theorem select_pkt (s : State) : (select s).pkt = s.pkt := rfl
@[simp] theorem select_resp (s : State) : (select s).resp = s.resp := rfl
@[simp] theorem select_bus (s : State) : (select s).bus = s.bus ++ [.select] := rfl
@[simp] theorem select_cardIn (s : State) : (select s).cardIn = s.cardIn := rfl
@[simp] theorem select_draws (s : State) : (select s).draws = s.draws := rfl
@[simp] theorem select_hostIn (s : State) : (select s).hostIn = s.hostIn := rfl
@[simp] theorem select_hostOut (s : State) : (select s).hostOut = s.hostOut := rfl
@[simp] theorem select_refusedActs (s : State) : (select s).refusedActs = s.refusedActs := rfl

/-! `endNoBus` -/

@[simp] theorem endNoBus_cfg (r : Option ErrorKind) (s : State) : (endNoBus r s).cfg = s.cfg := rfl
@[simp] theorem endNoBus_sessionValid (r : Option ErrorKind) (s : State) : (endNoBus r s).sessionValid = s.sessionValid := rfl
@[simp] theorem endNoBus_family (r : Option ErrorKind) (s : State) : (endNoBus r s).family = s.family := rfl
@[simp] theorem endNoBus_generation (r : Option ErrorKind) (s : State) : (endNoBus r s).generation = s.generation := rfl
@[simp] theorem endNoBus_capClass (r : Option ErrorKind) (s : State) : (endNoBus r s).capClass = s.capClass := rfl
@[simp] theorem endNoBus_blockLen (r : Option ErrorKind) (s : State) : (endNoBus r s).blockLen = s.blockLen := rfl
@[simp] theorem endNoBus_clockMode (r : Option ErrorKind) (s : State) : (endNoBus r s).clockMode = s.clockMode := rfl
@[simp] theorem endNoBus_negState (r : Option ErrorKind) (s : State) : (endNoBus r s).negState = s.negState := rfl
@[simp] theorem endNoBus_opState (r : Option ErrorKind) (s : State) : (endNoBus r s).opState = .idle := rfl
@[simp] theorem endNoBus_reqOp (r : Option ErrorKind) (s : State) : (endNoBus r s).reqOp = s.reqOp := rfl
@[simp] theorem endNoBus_reqAddr (r : Option ErrorKind) (s : State) : (endNoBus r s).reqAddr = s.reqAddr := rfl
@[simp] theorem endNoBus_reqLen (r : Option ErrorKind) (s : State) : (endNoBus r s).reqLen = s.reqLen := rfl
@[simp] theorem endNoBus_resultKind (r : Option ErrorKind) (s : State) : (endNoBus r s).resultKind = some (resultCode r) := rfl
@[simp] theorem endNoBus_resultValue (r : Option ErrorKind) (s : State) : (endNoBus r s).resultValue = s.resultValue := rfl
@[simp] theorem endNoBus_tb (r : Option ErrorKind) (s : State) : (endNoBus r s).tb = s.tb := rfl
@[simp] theorem endNoBus_pkt (r : Option ErrorKind) (s : State) : (endNoBus r s).pkt = s.pkt := rfl
@[simp] theorem endNoBus_resp (r : Option ErrorKind) (s : State) : (endNoBus r s).resp = s.resp := rfl
@[simp] theorem endNoBus_bus (r : Option ErrorKind) (s : State) : (endNoBus r s).bus = s.bus := rfl
@[simp] theorem endNoBus_cardIn (r : Option ErrorKind) (s : State) : (endNoBus r s).cardIn = s.cardIn := rfl
@[simp] theorem endNoBus_draws (r : Option ErrorKind) (s : State) : (endNoBus r s).draws = s.draws := rfl
@[simp] theorem endNoBus_hostIn (r : Option ErrorKind) (s : State) : (endNoBus r s).hostIn = s.hostIn := rfl
@[simp] theorem endNoBus_hostOut (r : Option ErrorKind) (s : State) : (endNoBus r s).hostOut = s.hostOut := rfl
@[simp] theorem endNoBus_refusedActs (r : Option ErrorKind) (s : State) : (endNoBus r s).refusedActs = s.refusedActs := rfl

/-! `hostSees` -/

@[simp] theorem hostSees_cfg (v : HostVal) (s : State) : (hostSees v s).cfg = s.cfg := rfl
@[simp] theorem hostSees_sessionValid (v : HostVal) (s : State) : (hostSees v s).sessionValid = s.sessionValid := rfl
@[simp] theorem hostSees_family (v : HostVal) (s : State) : (hostSees v s).family = s.family := rfl
@[simp] theorem hostSees_generation (v : HostVal) (s : State) : (hostSees v s).generation = s.generation := rfl
@[simp] theorem hostSees_capClass (v : HostVal) (s : State) : (hostSees v s).capClass = s.capClass := rfl
@[simp] theorem hostSees_blockLen (v : HostVal) (s : State) : (hostSees v s).blockLen = s.blockLen := rfl
@[simp] theorem hostSees_clockMode (v : HostVal) (s : State) : (hostSees v s).clockMode = s.clockMode := rfl
@[simp] theorem hostSees_negState (v : HostVal) (s : State) : (hostSees v s).negState = s.negState := rfl
@[simp] theorem hostSees_opState (v : HostVal) (s : State) : (hostSees v s).opState = s.opState := rfl
@[simp] theorem hostSees_reqOp (v : HostVal) (s : State) : (hostSees v s).reqOp = s.reqOp := rfl
@[simp] theorem hostSees_reqAddr (v : HostVal) (s : State) : (hostSees v s).reqAddr = s.reqAddr := rfl
@[simp] theorem hostSees_reqLen (v : HostVal) (s : State) : (hostSees v s).reqLen = s.reqLen := rfl
@[simp] theorem hostSees_resultKind (v : HostVal) (s : State) : (hostSees v s).resultKind = s.resultKind := rfl
@[simp] theorem hostSees_resultValue (v : HostVal) (s : State) : (hostSees v s).resultValue = s.resultValue := rfl
@[simp] theorem hostSees_tb (v : HostVal) (s : State) : (hostSees v s).tb = s.tb := rfl
@[simp] theorem hostSees_pkt (v : HostVal) (s : State) : (hostSees v s).pkt = s.pkt := rfl
@[simp] theorem hostSees_resp (v : HostVal) (s : State) : (hostSees v s).resp = s.resp := rfl
@[simp] theorem hostSees_bus (v : HostVal) (s : State) : (hostSees v s).bus = s.bus := rfl
@[simp] theorem hostSees_cardIn (v : HostVal) (s : State) : (hostSees v s).cardIn = s.cardIn := rfl
@[simp] theorem hostSees_draws (v : HostVal) (s : State) : (hostSees v s).draws = s.draws := rfl
@[simp] theorem hostSees_hostIn (v : HostVal) (s : State) : (hostSees v s).hostIn = s.hostIn := rfl
@[simp] theorem hostSees_hostOut (v : HostVal) (s : State) : (hostSees v s).hostOut = s.hostOut ++ [v] := rfl
@[simp] theorem hostSees_refusedActs (v : HostVal) (s : State) : (hostSees v s).refusedActs = s.refusedActs := rfl

/-! `recordRefused` -/

@[simp] theorem recordRefused_cfg (a : HostAct) (s : State) : (recordRefused a s).cfg = s.cfg := rfl
@[simp] theorem recordRefused_sessionValid (a : HostAct) (s : State) : (recordRefused a s).sessionValid = s.sessionValid := rfl
@[simp] theorem recordRefused_family (a : HostAct) (s : State) : (recordRefused a s).family = s.family := rfl
@[simp] theorem recordRefused_generation (a : HostAct) (s : State) : (recordRefused a s).generation = s.generation := rfl
@[simp] theorem recordRefused_capClass (a : HostAct) (s : State) : (recordRefused a s).capClass = s.capClass := rfl
@[simp] theorem recordRefused_blockLen (a : HostAct) (s : State) : (recordRefused a s).blockLen = s.blockLen := rfl
@[simp] theorem recordRefused_clockMode (a : HostAct) (s : State) : (recordRefused a s).clockMode = s.clockMode := rfl
@[simp] theorem recordRefused_negState (a : HostAct) (s : State) : (recordRefused a s).negState = s.negState := rfl
@[simp] theorem recordRefused_opState (a : HostAct) (s : State) : (recordRefused a s).opState = s.opState := rfl
@[simp] theorem recordRefused_reqOp (a : HostAct) (s : State) : (recordRefused a s).reqOp = s.reqOp := rfl
@[simp] theorem recordRefused_reqAddr (a : HostAct) (s : State) : (recordRefused a s).reqAddr = s.reqAddr := rfl
@[simp] theorem recordRefused_reqLen (a : HostAct) (s : State) : (recordRefused a s).reqLen = s.reqLen := rfl
@[simp] theorem recordRefused_resultKind (a : HostAct) (s : State) : (recordRefused a s).resultKind = s.resultKind := rfl
@[simp] theorem recordRefused_resultValue (a : HostAct) (s : State) : (recordRefused a s).resultValue = s.resultValue := rfl
@[simp] theorem recordRefused_tb (a : HostAct) (s : State) : (recordRefused a s).tb = s.tb := rfl
@[simp] theorem recordRefused_pkt (a : HostAct) (s : State) : (recordRefused a s).pkt = s.pkt := rfl
@[simp] theorem recordRefused_resp (a : HostAct) (s : State) : (recordRefused a s).resp = s.resp := rfl
@[simp] theorem recordRefused_bus (a : HostAct) (s : State) : (recordRefused a s).bus = s.bus := rfl
@[simp] theorem recordRefused_cardIn (a : HostAct) (s : State) : (recordRefused a s).cardIn = s.cardIn := rfl
@[simp] theorem recordRefused_draws (a : HostAct) (s : State) : (recordRefused a s).draws = s.draws := rfl
@[simp] theorem recordRefused_hostIn (a : HostAct) (s : State) : (recordRefused a s).hostIn = s.hostIn := rfl
@[simp] theorem recordRefused_hostOut (a : HostAct) (s : State) : (recordRefused a s).hostOut = s.hostOut := rfl
@[simp] theorem recordRefused_refusedActs (a : HostAct) (s : State) : (recordRefused a s).refusedActs = s.refusedActs ++ [a] := rfl

/-! `placeAt` -/

@[simp] theorem placeAt_cfg (p : Pos) (s : State) : (placeAt p s).cfg = s.cfg := rfl
@[simp] theorem placeAt_sessionValid (p : Pos) (s : State) : (placeAt p s).sessionValid = s.sessionValid := rfl
@[simp] theorem placeAt_family (p : Pos) (s : State) : (placeAt p s).family = s.family := rfl
@[simp] theorem placeAt_generation (p : Pos) (s : State) : (placeAt p s).generation = s.generation := rfl
@[simp] theorem placeAt_capClass (p : Pos) (s : State) : (placeAt p s).capClass = s.capClass := rfl
@[simp] theorem placeAt_blockLen (p : Pos) (s : State) : (placeAt p s).blockLen = s.blockLen := rfl
@[simp] theorem placeAt_clockMode (p : Pos) (s : State) : (placeAt p s).clockMode = s.clockMode := rfl
@[simp] theorem placeAt_negState (p : Pos) (s : State) : (placeAt p s).negState = s.negState := rfl
@[simp] theorem placeAt_opState (p : Pos) (s : State) : (placeAt p s).opState = .busy p := rfl
@[simp] theorem placeAt_reqOp (p : Pos) (s : State) : (placeAt p s).reqOp = s.reqOp := rfl
@[simp] theorem placeAt_reqAddr (p : Pos) (s : State) : (placeAt p s).reqAddr = s.reqAddr := rfl
@[simp] theorem placeAt_reqLen (p : Pos) (s : State) : (placeAt p s).reqLen = s.reqLen := rfl
@[simp] theorem placeAt_resultKind (p : Pos) (s : State) : (placeAt p s).resultKind = s.resultKind := rfl
@[simp] theorem placeAt_resultValue (p : Pos) (s : State) : (placeAt p s).resultValue = s.resultValue := rfl
@[simp] theorem placeAt_tb (p : Pos) (s : State) : (placeAt p s).tb = s.tb := rfl
@[simp] theorem placeAt_pkt (p : Pos) (s : State) : (placeAt p s).pkt = s.pkt := rfl
@[simp] theorem placeAt_resp (p : Pos) (s : State) : (placeAt p s).resp = s.resp := rfl
@[simp] theorem placeAt_bus (p : Pos) (s : State) : (placeAt p s).bus = s.bus := rfl
@[simp] theorem placeAt_cardIn (p : Pos) (s : State) : (placeAt p s).cardIn = s.cardIn := rfl
@[simp] theorem placeAt_draws (p : Pos) (s : State) : (placeAt p s).draws = s.draws := rfl
@[simp] theorem placeAt_hostIn (p : Pos) (s : State) : (placeAt p s).hostIn = .wait :: s.hostIn := rfl
@[simp] theorem placeAt_hostOut (p : Pos) (s : State) : (placeAt p s).hostOut = s.hostOut := rfl
@[simp] theorem placeAt_refusedActs (p : Pos) (s : State) : (placeAt p s).refusedActs = s.refusedActs := rfl

/-! `endOp`: the `on raise` block writes one register, the end writes five. -/

@[simp] theorem endOp_cfg (o : OpClass) (r : Option ErrorKind) (s : State) :
    (endOp o r s).cfg = s.cfg := by cases r <;> cases o <;> rfl
@[simp] theorem endOp_family (o : OpClass) (r : Option ErrorKind) (s : State) :
    (endOp o r s).family = s.family := by cases r <;> cases o <;> rfl
@[simp] theorem endOp_generation (o : OpClass) (r : Option ErrorKind) (s : State) :
    (endOp o r s).generation = s.generation := by cases r <;> cases o <;> rfl
@[simp] theorem endOp_capClass (o : OpClass) (r : Option ErrorKind) (s : State) :
    (endOp o r s).capClass = s.capClass := by cases r <;> cases o <;> rfl
@[simp] theorem endOp_blockLen (o : OpClass) (r : Option ErrorKind) (s : State) :
    (endOp o r s).blockLen = s.blockLen := by cases r <;> cases o <;> rfl
@[simp] theorem endOp_clockMode (o : OpClass) (r : Option ErrorKind) (s : State) :
    (endOp o r s).clockMode = s.clockMode := by cases r <;> cases o <;> rfl
@[simp] theorem endOp_opState (o : OpClass) (r : Option ErrorKind) (s : State) :
    (endOp o r s).opState = .idle := by cases r <;> cases o <;> rfl
@[simp] theorem endOp_reqOp (o : OpClass) (r : Option ErrorKind) (s : State) :
    (endOp o r s).reqOp = s.reqOp := by cases r <;> cases o <;> rfl
@[simp] theorem endOp_reqAddr (o : OpClass) (r : Option ErrorKind) (s : State) :
    (endOp o r s).reqAddr = s.reqAddr := by cases r <;> cases o <;> rfl
@[simp] theorem endOp_reqLen (o : OpClass) (r : Option ErrorKind) (s : State) :
    (endOp o r s).reqLen = s.reqLen := by cases r <;> cases o <;> rfl
@[simp] theorem endOp_resultKind (o : OpClass) (r : Option ErrorKind) (s : State) :
    (endOp o r s).resultKind = some (resultCode r) := by cases r <;> cases o <;> rfl
@[simp] theorem endOp_resultValue (o : OpClass) (r : Option ErrorKind) (s : State) :
    (endOp o r s).resultValue = s.resultValue := by cases r <;> cases o <;> rfl
@[simp] theorem endOp_tb (o : OpClass) (r : Option ErrorKind) (s : State) :
    (endOp o r s).tb = s.tb := by cases r <;> cases o <;> rfl
@[simp] theorem endOp_pkt (o : OpClass) (r : Option ErrorKind) (s : State) :
    (endOp o r s).pkt = [] := by cases r <;> cases o <;> rfl
@[simp] theorem endOp_resp (o : OpClass) (r : Option ErrorKind) (s : State) :
    (endOp o r s).resp = [] := by cases r <;> cases o <;> rfl
@[simp] theorem endOp_bus (o : OpClass) (r : Option ErrorKind) (s : State) :
    (endOp o r s).bus = s.bus ++ [.deselect] := by cases r <;> cases o <;> rfl
@[simp] theorem endOp_cardIn (o : OpClass) (r : Option ErrorKind) (s : State) :
    (endOp o r s).cardIn = s.cardIn := by cases r <;> cases o <;> rfl
@[simp] theorem endOp_draws (o : OpClass) (r : Option ErrorKind) (s : State) :
    (endOp o r s).draws = s.draws := by cases r <;> cases o <;> rfl
@[simp] theorem endOp_hostIn (o : OpClass) (r : Option ErrorKind) (s : State) :
    (endOp o r s).hostIn = s.hostIn := by cases r <;> cases o <;> rfl
@[simp] theorem endOp_hostOut (o : OpClass) (r : Option ErrorKind) (s : State) :
    (endOp o r s).hostOut = s.hostOut := by cases r <;> cases o <;> rfl
@[simp] theorem endOp_refusedActs (o : OpClass) (r : Option ErrorKind) (s : State) :
    (endOp o r s).refusedActs = s.refusedActs := by cases r <;> cases o <;> rfl
@[simp] theorem endOp_none_sessionValid (o : OpClass) (s : State) : (endOp o none s).sessionValid = s.sessionValid := rfl
@[simp] theorem endOp_none_negState (o : OpClass) (s : State) : (endOp o none s).negState = s.negState := rfl
@[simp] theorem endOp_negotiation_sessionValid (e : ErrorKind) (s : State) :
    (endOp .negotiation (some e) s).sessionValid = s.sessionValid := rfl
@[simp] theorem endOp_negotiation_negState (e : ErrorKind) (s : State) :
    (endOp .negotiation (some e) s).negState = .failed := rfl
@[simp] theorem endOp_blockIO_sessionValid (e : ErrorKind) (s : State) :
    (endOp .blockIO (some e) s).sessionValid = false := rfl
@[simp] theorem endOp_blockIO_negState (r : Option ErrorKind) (s : State) :
    (endOp .blockIO r s).negState = s.negState := by cases r <;> rfl
@[simp] theorem endOp_status_sessionValid (r : Option ErrorKind) (s : State) :
    (endOp .status r s).sessionValid = s.sessionValid := by cases r <;> rfl
@[simp] theorem endOp_status_negState (r : Option ErrorKind) (s : State) :
    (endOp .status r s).negState = s.negState := by cases r <;> rfl

end Sys2Proof.Machine
end

