-- ==== Sys2Proof/Laws/Ops.lean ====
section
/-! SUPPORT. What each shared operation can do, said once: TB, `Recv`, the polls, `Issue`, `IssueApp`. -/

namespace Sys2Proof.Machine

/-! ## TB -/

theorem Mem.mem_cells_iff (p : Host.Cell) (a : Nat) (bs : List Byte) :
    p ∈ Mem.cells a bs ↔ ∃ j, bs[j]? = some p.2 ∧ p.1 = a + j := by
  induction bs generalizing a with
  | nil => simp [Mem.cells]
  | cons b bs ih =>
    obtain ⟨k, v⟩ := p
    simp only [Mem.cells, List.mem_cons, ih]
    constructor
    · rintro (h | ⟨j, hj, hk⟩)
      · obtain ⟨rfl, rfl⟩ := Prod.mk.inj h
        exact ⟨0, rfl, rfl⟩
      · exact ⟨j + 1, by simpa using hj, by omega⟩
    · rintro ⟨j, hj, hk⟩
      cases j with
      | zero => exact .inl (by simp_all)
      | succ j => exact .inr ⟨j, by simpa using hj, by omega⟩

theorem Mem.cells_pairwise (a : Nat) (bs : List Byte) :
    (Mem.cells a bs).Pairwise (fun p q => p.1 < q.1) := by
  induction bs generalizing a with
  | nil => exact .nil
  | cons b bs ih =>
    refine .cons (fun q hq => ?_) (ih _)
    obtain ⟨j, -, h⟩ := (Mem.mem_cells_iff q _ _).1 hq
    simp only [h]
    omega

theorem Mem.cells_lt {p : Host.Cell} {a : Nat} {bs : List Byte} (h : p ∈ Mem.cells a bs) :
    a ≤ p.1 ∧ p.1 < a + bs.length := by
  obtain ⟨j, hj, hp⟩ := (Mem.mem_cells_iff p a bs).1 h
  have := (List.getElem?_eq_some_iff.1 hj).1
  omega

/-- A write keeps the canonical form of TB. -/
theorem Mem.write_wf {m : List Host.Cell} (h : Mem.wf m) (a : Nat) (bs : List Byte) :
    Mem.wf (Mem.write m a bs) := by
  have hl : ∀ p ∈ m.filter (fun p => decide (p.1 < a)), p.1 < a := by simp
  have hr : ∀ p ∈ m.filter (fun p => decide (a + bs.length ≤ p.1)), a + bs.length ≤ p.1 := by simp
  refine List.pairwise_append.2 ⟨List.pairwise_append.2 ⟨h.filter _, Mem.cells_pairwise a bs, ?_⟩, h.filter _, ?_⟩
  · intro p hp q hq
    have := hl p hp
    have := (Mem.cells_lt hq).1
    omega
  · intro p hp q hq
    have hq := hr q hq
    rcases List.mem_append.1 hp with hp | hp
    · have := hl p hp
      omega
    · have := (Mem.cells_lt hp).2
      omega

/-- A write inside the offsets of TB lists no offset outside them. -/
theorem Mem.write_lt {m : List Host.Cell} {n : Nat} (h : ∀ p ∈ m, p.1 < n) (a : Nat) (bs : List Byte)
    (hb : a + bs.length ≤ n) : ∀ p ∈ Mem.write m a bs, p.1 < n := by
  intro p hp
  rcases List.mem_append.1 hp with hp | hp
  · rcases List.mem_append.1 hp with hp | hp
    · exact h p (List.mem_filter.1 hp).1
    · have := (Mem.cells_lt hp).2
      omega
  · exact h p (List.mem_filter.1 hp).1

theorem Mem.read_append (m m' : List Host.Cell) (k : Nat) :
    Mem.read (m ++ m') k = (Mem.read m k).or (Mem.read m' k) := by
  induction m with
  | nil => simp [Mem.read]
  | cons p m ih =>
    obtain ⟨k', b⟩ := p
    by_cases h : k' = k <;> simp [Mem.read, h, ih]

theorem Mem.read_filter (m : List Host.Cell) (f : Nat → Bool) (k : Nat) :
    Mem.read (m.filter fun p => f p.1) k = if f k then Mem.read m k else none := by
  induction m with
  | nil => simp [Mem.read]
  | cons p m ih =>
    obtain ⟨k', b⟩ := p
    by_cases hf : f k' <;> by_cases hk : k' = k
    · subst hk; simp [Mem.read, hf]
    · simp [Mem.read, hf, hk, ih]
    · subst hk; simp [hf, ih]
    · simp [Mem.read, hf, hk, ih]

theorem Mem.read_cells (a : Nat) (bs : List Byte) (k : Nat) :
    Mem.read (Mem.cells a bs) k = if a ≤ k then bs[k - a]? else none := by
  induction bs generalizing a with
  | nil => simp [Mem.cells, Mem.read]
  | cons b bs ih =>
    by_cases h : a = k
    · subst h; simp [Mem.cells, Mem.read]
    · simp only [Mem.cells, Mem.read, h, if_false, ih]
      by_cases h1 : a + 1 ≤ k
      · have h2 : k - a = (k - (a + 1)) + 1 := by omega
        simp [h1, h2, show a ≤ k by omega]
      · simp [h1, show ¬ a ≤ k by omega]

/-- What a byte of TB reads as after a write: the written byte inside the range, as before outside it. -/
theorem Mem.read_write (m : List Host.Cell) (a : Nat) (bs : List Byte) (k : Nat) :
    Mem.read (Mem.write m a bs) k = if a ≤ k ∧ k < a + bs.length then bs[k - a]? else Mem.read m k := by
  have h1 := Mem.read_filter m (fun i => decide (i < a)) k
  have h2 := Mem.read_filter m (fun i => decide (a + bs.length ≤ i)) k
  simp only [Mem.write, Mem.read_append, Mem.read_cells, h1, h2]
  rcases Nat.lt_trichotomy k a with h | rfl | h
  · simp [h, show ¬ a ≤ k by omega, show ¬ a + bs.length ≤ k by omega]
  · cases bs <;> simp
  · by_cases h3 : k < a + bs.length
    · simp [h3, show ¬ k < a by omega, show a ≤ k by omega, show ¬ a + bs.length ≤ k by omega]
    · have h4 : bs[k - a]? = none := List.getElem?_eq_none (by omega)
      simp [h4, h3, show ¬ k < a by omega, show a + bs.length ≤ k by omega]

theorem Mem.readRange_length {m : List Host.Cell} {a n : Nat} {bs : List Byte}
    (h : Mem.readRange m a n = some bs) : bs.length = n := by
  induction n generalizing a bs with
  | zero => simp_all [Mem.readRange]
  | succ n ih =>
    simp only [Mem.readRange] at h
    split at h
    · next h2 => cases h; simp [ih h2]
    · cases h

/-- A range whose every byte holds a value reads as those bytes (R52). -/
theorem Mem.readRange_of_read (m : List Host.Cell) (bs : List Byte) (a : Nat)
    (h : ∀ i (hi : i < bs.length), Mem.read m (a + i) = some bs[i]) :
    Mem.readRange m a bs.length = some bs := by
  induction bs generalizing a with
  | nil => rfl
  | cons b bs ih =>
    have h0 := h 0 (by simp)
    have ht := ih (a + 1) fun i hi => by
      have := h (i + 1) (by simpa using hi)
      simpa [Nat.add_assoc, Nat.add_comm 1 i] using this
    simp only [List.length_cons, Mem.readRange, ht]
    simp at h0
    rw [h0]

/-- A range with a byte that holds no value reads as nothing (R302). -/
theorem Mem.readRange_of_none (m : List Host.Cell) (a n i : Nat) (hi : i < n)
    (h : Mem.read m (a + i) = none) : Mem.readRange m a n = none := by
  induction n generalizing a i with
  | zero => omega
  | succ n ih =>
    simp only [Mem.readRange]
    cases i with
    | zero => simp at h; rw [h]
    | succ i =>
      rw [ih (a + 1) i (by omega) (by rw [← h]; congr 1; omega)]
      split
      · next h2 => cases h2
      · rfl

/-- The bytes of a range that reads. -/
theorem Mem.read_of_readRange (m : List Host.Cell) (n a : Nat) (bs : List Byte)
    (h : Mem.readRange m a n = some bs) : ∀ i, i < n → Mem.read m (a + i) = bs[i]? := by
  induction n generalizing a bs with
  | zero => intro i hi; omega
  | succ n ih =>
    intro i hi
    simp only [Mem.readRange] at h
    split at h
    · next b bs h1 h2 =>
      cases h
      cases i with
      | zero => simpa using h1
      | succ i => rw [show a + (i + 1) = a + 1 + i by omega, ih _ _ h2 i (by omega)]; simp
    · cases h

/-! ## Operands -/

/-- An operand register has `ADDR_W` bits (R8). -/
theorem operandValue_lt (c : Config) (v : Nat) : operandValue c v < 2 ^ c.addrW :=
  Nat.mod_lt _ (Nat.two_pow_pos _)

/-- The argument of a command is the wire address itself (R53, R54). -/
theorem wireArg_eq_some {cap : CapClass} {bl : Word} {a : Nat} {wa : Word} :
    wireArg cap bl a = some wa ↔ wa.toNat = wireAddr cap bl a := by
  unfold wireArg
  split
  · next h =>
    simp only [Option.some.injEq]
    constructor
    · rintro rfl; exact (BitVec.toNat_ofNat ..).trans (Nat.mod_eq_of_lt h)
    · intro e; exact BitVec.eq_of_toNat_eq (by rw [e, BitVec.toNat_ofNat, Nat.mod_eq_of_lt h])
  · next h =>
    simp only [false_iff, reduceCtorEq]
    intro e
    exact h (e ▸ wa.isLt)

/-- A wire address that does not fit gives no argument (R54). -/
theorem wireArg_eq_none {cap : CapClass} {bl : Word} {a : Nat} :
    wireArg cap bl a = none ↔ 2 ^ 32 ≤ wireAddr cap bl a := by
  unfold wireArg
  split <;> simp <;> omega

/-- A wire address is at most the host's address. -/
theorem wireAddr_le (cap : CapClass) (bl : Word) (a : Nat) : wireAddr cap bl a ≤ a := by
  cases cap with
  | high => exact Nat.div_le_self _ _
  | standard => exact Nat.le_refl _

/-! ## `Recv` -/

/-- Everything one `Recv` can do: it consumes an answer and is one event; no register changes. -/
theorem recv_state (s : State) : (recv s).2 =
    { s with
      cardIn := s.cardIn.tail
      draws := if s.cardIn = [] then s.draws + 1 else s.draws
      bus := s.bus ++ [.recv (recv s).1] } := by
  unfold recv
  split <;> next h => simp [h]

theorem recv_listed {s : State} {b : Byte} {rest : List Byte} (h : s.cardIn = b :: rest) :
    recv s = (b, { s with cardIn := rest, bus := s.bus ++ [.recv b] }) := by
  simp [recv, h]

/-- `n` listed answers are received in order. -/
theorem recvN_listed (bs : List Byte) {s : State} {rest : List Byte} (h : s.cardIn = bs ++ rest) :
    recvN bs.length s = (bs, { s with cardIn := rest, bus := s.bus ++ bs.map .recv }) := by
  induction bs generalizing s with
  | nil => simp_all [recvN]; rw [← h]
  | cons b bs ih =>
    simp only [List.length_cons, recvN]
    rw [recv_listed (rest := bs ++ rest) (by simpa using h)]
    simp only
    rw [ih rfl]
    simp

theorem recvN_length (n : Nat) (s : State) : (recvN n s).1.length = n := by
  induction n generalizing s with
  | zero => rfl
  | succ n ih => simp [recvN, ih]

/-- A part of a run that only receives and sends: the state differs in the port's record, the card's input
and the two transient buffers alone, and no chip-select or clock event is made. -/
def PortOnly (s t : State) : Prop :=
  ∃ es : List BusEvent, (∀ e ∈ es, (∃ b, e = .send b) ∨ ∃ b, e = .recv b) ∧
    t = { s with pkt := t.pkt, resp := t.resp, bus := s.bus ++ es, cardIn := t.cardIn, draws := t.draws }

theorem PortOnly.refl (s : State) : PortOnly s s := ⟨[], by simp, by simp⟩

theorem PortOnly.trans {s t u : State} (h : PortOnly s t) (h' : PortOnly t u) : PortOnly s u := by
  obtain ⟨es, he, ht⟩ := h
  obtain ⟨es', he', hu⟩ := h'
  refine ⟨es ++ es', fun e hm => ?_, ?_⟩
  · rcases List.mem_append.1 hm with hm | hm
    · exact he e hm
    · exact he' e hm
  · rw [hu, ht]
    simp

theorem PortOnly.sendAll (bs : List Byte) (s : State) : PortOnly s (sendAll bs s) :=
  ⟨bs.map .send, by simp, rfl⟩

theorem PortOnly.recv (s : State) : PortOnly s (recv s).2 := by
  refine ⟨[.recv (Machine.recv s).1], by simp, ?_⟩
  rw [recv_state]

theorem PortOnly.recvN (n : Nat) (s : State) : PortOnly s (recvN n s).2 := by
  induction n generalizing s with
  | zero => exact .refl s
  | succ n ih => exact (PortOnly.recv s).trans (ih _)

theorem PortOnly.pollNonIdle (n : Nat) (s : State) : PortOnly s (pollNonIdle n s).2 := by
  induction n generalizing s with
  | zero => exact .refl s
  | succ n ih =>
    simp only [Machine.pollNonIdle]
    split
    · exact (PortOnly.recv s).trans (ih _)
    · exact PortOnly.recv s

/-! ## The bounded poll -/

/-- The poll skips listed `IDLE_FILL` bytes and takes the first other byte inside the budget (R133). -/
theorem pollNonIdle_listed (m n : Nat) (hm : m < n) {s : State} {b : Byte} {rest : List Byte}
    (hb : b ≠ s.cfg.idleFill) (h : s.cardIn = List.replicate m s.cfg.idleFill ++ b :: rest) :
    pollNonIdle n s = (some b, { s with
      cardIn := rest
      bus := s.bus ++ (List.replicate m s.cfg.idleFill ++ [b]).map .recv }) := by
  induction m generalizing n s with
  | zero =>
    obtain ⟨n, rfl⟩ : ∃ n', n = n' + 1 := ⟨n - 1, by omega⟩
    simp only [pollNonIdle, recv_listed (s := s) (by simpa using h)]
    simp [hb]
  | succ m ih =>
    obtain ⟨n, rfl⟩ : ∃ n', n = n' + 1 := ⟨n - 1, by omega⟩
    simp only [pollNonIdle, recv_listed (s := s) (by simpa [List.replicate_succ] using h)]
    rw [if_pos trivial, ih n (by omega) (by exact hb) (by rfl)]
    simp [List.replicate_succ]

/-- A poll whose whole budget is `IDLE_FILL` receives exactly the budget (R133). -/
theorem pollNonIdle_timeout (n : Nat) {s : State} {rest : List Byte}
    (h : s.cardIn = List.replicate n s.cfg.idleFill ++ rest) :
    pollNonIdle n s = (none, { s with
      cardIn := rest
      bus := s.bus ++ (List.replicate n s.cfg.idleFill).map .recv }) := by
  induction n generalizing s with
  | zero => simp_all [pollNonIdle]; rw [← h]
  | succ n ih =>
    simp only [pollNonIdle, recv_listed (s := s) (by simpa [List.replicate_succ] using h)]
    rw [if_pos trivial, ih (by rfl)]
    simp [List.replicate_succ]

theorem pollNonIdle_ne_idle {n : Nat} {s s1 : State} {b : Byte} (h : pollNonIdle n s = (some b, s1)) :
    b ≠ s.cfg.idleFill := by
  induction n generalizing s with
  | zero => simp [pollNonIdle] at h
  | succ n ih =>
    simp only [pollNonIdle] at h
    have hc : (recv s).2.cfg = s.cfg := by rw [recv_state]
    split at h
    · rw [← hc]; exact ih h
    · next hne => cases h; exact hne

/-! ## `Issue` and `IssueApp` -/

/-- The state in which the response poll of an `Issue` begins: the packet framed and sent (R131, R132). -/
def afterSend (k : Cmd) (arg : Word) (s : State) : State :=
  sendAll (frame (s.cfg.idx k) arg) { s with pkt := frame (s.cfg.idx k) arg }

theorem PortOnly.afterSend (k : Cmd) (arg : Word) (s : State) : PortOnly s (afterSend k arg s) :=
  ⟨(frame (s.cfg.idx k) arg).map .send, by simp, rfl⟩

theorem PortOnly.setResp (bs : List Byte) (s : State) : PortOnly s { s with resp := bs } :=
  ⟨[], by simp, by simp⟩

/-- `Issue` touches the port, `PKT` and `RESP` alone (R134). -/
theorem PortOnly.issue (k : Cmd) (arg : Word) (s : State) : PortOnly s (issue k arg s).2 := by
  have h0 := PortOnly.afterSend k arg s
  have h1 := PortOnly.pollNonIdle s.cfg.respPollMax (Machine.afterSend k arg s)
  unfold Machine.issue
  simp only [Machine.afterSend] at h0 h1
  dsimp only
  split
  · next heq => rw [heq] at h1; exact h0.trans h1
  · next s1 heq =>
    rw [heq] at h1
    exact (h0.trans h1).trans ((PortOnly.recvN _ s1).trans (PortOnly.setResp _ _))

/-- An `Issue` whose listed answers are `m` idle bytes, a first byte inside the budget, and the rest of the
response (R133). -/
theorem issue_response (k : Cmd) (arg : Word) {s : State} (m : Nat) (r : Byte) (bs rest : List Byte)
    (hm : m < s.cfg.respPollMax) (hr : r ≠ s.cfg.idleFill) (hl : bs.length = respLen k - 1)
    (h : s.cardIn = List.replicate m s.cfg.idleFill ++ r :: (bs ++ rest)) :
    issue k arg s = (.response r bs, { s with
      pkt := frame (s.cfg.idx k) arg
      resp := r :: bs
      cardIn := rest
      bus := s.bus ++ (frame (s.cfg.idx k) arg).map .send
        ++ (List.replicate m s.cfg.idleFill ++ r :: bs).map .recv }) := by
  have hp := pollNonIdle_listed m s.cfg.respPollMax hm
    (s := sendAll (frame (s.cfg.idx k) arg) { s with pkt := frame (s.cfg.idx k) arg }) hr h
  simp only [issue, hp, ← hl]
  rw [recvN_listed bs rfl]
  simp

/-- An `Issue` whose whole poll budget is `IDLE_FILL` (R133). -/
theorem issue_timeout (k : Cmd) (arg : Word) {s : State} (rest : List Byte)
    (h : s.cardIn = List.replicate s.cfg.respPollMax s.cfg.idleFill ++ rest) :
    issue k arg s = (.timeout, { s with
      pkt := frame (s.cfg.idx k) arg
      cardIn := rest
      bus := s.bus ++ (frame (s.cfg.idx k) arg).map .send
        ++ (List.replicate s.cfg.respPollMax s.cfg.idleFill).map .recv }) := by
  have hp := pollNonIdle_timeout s.cfg.respPollMax
    (s := sendAll (frame (s.cfg.idx k) arg) { s with pkt := frame (s.cfg.idx k) arg }) h
  simp only [issue, hp]
  simp

/-- `IssueApp` touches the port, `PKT` and `RESP` alone. -/
theorem PortOnly.issueApp (k : Cmd) (arg : Word) (s : State) : PortOnly s (issueApp k arg s).2 := by
  have h1 := PortOnly.issue .appPrefix 0 s
  unfold Machine.issueApp
  split
  · next heq => rw [heq] at h1; exact h1
  · next p _ s1 heq =>
    rw [heq] at h1
    have h2 := PortOnly.issue k arg s1
    split
    · split <;> next heq2 => rw [heq2] at h2; exact h1.trans h2
    · exact h1

/-! ## Chip select -/

theorem portRun_append (xs ys : List BusEvent) :
    portRun (xs ++ ys) = (portRun xs).bind fun on => ys.foldlM portStep on := by
  simp [portRun, List.foldlM_append]

/-- Bytes moved while chip select is asserted leave it asserted. -/
theorem portRun_port {xs : List BusEvent} (es : List BusEvent) (hx : portRun xs = some true)
    (h : ∀ e ∈ es, (∃ b, e = BusEvent.send b) ∨ ∃ b, e = BusEvent.recv b) :
    portRun (xs ++ es) = some true := by
  rw [portRun_append, hx]
  induction es with
  | nil => rfl
  | cons e es ih =>
    rcases h e (by simp) with ⟨b, rfl⟩ | ⟨b, rfl⟩ <;> exact ih fun e he => h e (by simp [he])

theorem portRun_select {xs : List BusEvent} (h : portRun xs = some false) :
    portRun (xs ++ [.select]) = some true := by
  rw [portRun_append, h]; rfl

theorem portRun_deselect {xs : List BusEvent} (h : portRun xs = some true) :
    portRun (xs ++ [.deselect]) = some false := by
  rw [portRun_append, h]; rfl

theorem portRun_setClock (xs : List BusEvent) (r : Nat) :
    portRun (xs ++ [.setClock r]) = portRun xs := by
  rw [portRun_append]
  cases portRun xs <;> rfl

end Sys2Proof.Machine
end

