-- ==== Sys2Proof/Laws/PerInstr.lean ====
section
/-! SUPPORT. Laws about every instruction as syntax: the number of bytes of its encoding
(spec/30_encoding.md R70, R71, R87, R97). -/

namespace Sys2Proof.Machine

@[simp] theorem packet_length (idx : BitVec 6) (arg : Word) (crc : BitVec 7) : (packet idx arg crc).length = 6 := rfl

@[simp] theorem frame_length (idx : BitVec 6) (arg : Word) : (frame idx arg).length = 6 := rfl

end Sys2Proof.Machine

namespace Sys2Proof.Laws.EncodeLength

/-- The number of bytes of an item: one, but six for a packet and twelve for an application command. -/
def size : Instr → Nat
  | .reserved0 => 1
  | .init => 1
  | .readBlock => 1
  | .writeBlock => 1
  | .readBlocks => 1
  | .writeBlocks => 1
  | .readStatus => 1
  | .getIsMmc => 1
  | .getBlockLen => 1
  | .getIsHc => 1
  | .reservedA => 1
  | .eraseOutOfScope => 1
  | .getSizeOutOfScope => 1
  | .reservedD => 1
  | .reservedE => 1
  | .reservedF => 1
  | .cmdReset _ _ => 6
  | .cmdSendOpCond _ _ => 6
  | .cmdIfCond _ _ => 6
  | .cmdStopTransmission _ _ => 6
  | .cmdSendStatus _ _ => 6
  | .cmdSetBlockLen _ _ => 6
  | .cmdReadSingle _ _ => 6
  | .cmdReadMulti _ _ => 6
  | .cmdWriteSingle _ _ => 6
  | .cmdWriteMulti _ _ => 6
  | .cmdAppOpCond _ _ => 6
  | .cmdAppPrefix _ _ => 6
  | .cmdReadOcr _ _ => 6
  | .acmd41 _ _ => 12
  | .tokStartSingle => 1
  | .tokStartMultiWr => 1
  | .tokStartMultiRd => 1
  | .tokStopMultiWr => 1
  | .errorToken _ => 1
  | .dataRespAccepted _ => 1
  | .dataRespCrcRejected _ => 1
  | .dataRespWriteRejected _ => 1

/-- The encoding of the instruction has the size of its kind, under every configuration. -/
def Statement (i : Instr) : Prop := ∀ c : Config, (encode c i).length = size i

theorem reserved0 : Statement .reserved0 := fun _ => rfl

theorem init : Statement .init := fun _ => rfl

theorem readBlock : Statement .readBlock := fun _ => rfl

theorem writeBlock : Statement .writeBlock := fun _ => rfl

theorem readBlocks : Statement .readBlocks := fun _ => rfl

theorem writeBlocks : Statement .writeBlocks := fun _ => rfl

theorem readStatus : Statement .readStatus := fun _ => rfl

theorem getIsMmc : Statement .getIsMmc := fun _ => rfl

theorem getBlockLen : Statement .getBlockLen := fun _ => rfl

theorem getIsHc : Statement .getIsHc := fun _ => rfl

theorem reservedA : Statement .reservedA := fun _ => rfl

theorem eraseOutOfScope : Statement .eraseOutOfScope := fun _ => rfl

theorem getSizeOutOfScope : Statement .getSizeOutOfScope := fun _ => rfl

theorem reservedD : Statement .reservedD := fun _ => rfl

theorem reservedE : Statement .reservedE := fun _ => rfl

theorem reservedF : Statement .reservedF := fun _ => rfl

theorem cmdReset (arg : Word) (crc : BitVec 7) : Statement (.cmdReset arg crc) := fun _ => rfl

theorem cmdSendOpCond (arg : Word) (crc : BitVec 7) : Statement (.cmdSendOpCond arg crc) := fun _ => rfl

theorem cmdIfCond (arg : Word) (crc : BitVec 7) : Statement (.cmdIfCond arg crc) := fun _ => rfl

theorem cmdStopTransmission (arg : Word) (crc : BitVec 7) : Statement (.cmdStopTransmission arg crc) := fun _ => rfl

theorem cmdSendStatus (arg : Word) (crc : BitVec 7) : Statement (.cmdSendStatus arg crc) := fun _ => rfl

theorem cmdSetBlockLen (arg : Word) (crc : BitVec 7) : Statement (.cmdSetBlockLen arg crc) := fun _ => rfl

theorem cmdReadSingle (arg : Word) (crc : BitVec 7) : Statement (.cmdReadSingle arg crc) := fun _ => rfl

theorem cmdReadMulti (arg : Word) (crc : BitVec 7) : Statement (.cmdReadMulti arg crc) := fun _ => rfl

theorem cmdWriteSingle (arg : Word) (crc : BitVec 7) : Statement (.cmdWriteSingle arg crc) := fun _ => rfl

theorem cmdWriteMulti (arg : Word) (crc : BitVec 7) : Statement (.cmdWriteMulti arg crc) := fun _ => rfl

theorem cmdAppOpCond (arg : Word) (crc : BitVec 7) : Statement (.cmdAppOpCond arg crc) := fun _ => rfl

theorem cmdAppPrefix (arg : Word) (crc : BitVec 7) : Statement (.cmdAppPrefix arg crc) := fun _ => rfl

theorem cmdReadOcr (arg : Word) (crc : BitVec 7) : Statement (.cmdReadOcr arg crc) := fun _ => rfl

theorem acmd41 (arg : Word) (crc : BitVec 7) : Statement (.acmd41 arg crc) := fun _ => rfl

theorem tokStartSingle : Statement .tokStartSingle := fun _ => rfl

theorem tokStartMultiWr : Statement .tokStartMultiWr := fun _ => rfl

theorem tokStartMultiRd : Statement .tokStartMultiRd := fun _ => rfl

theorem tokStopMultiWr : Statement .tokStopMultiWr := fun _ => rfl

theorem errorToken (b : Byte) : Statement (.errorToken b) := fun _ => rfl

theorem dataRespAccepted (hi : BitVec 3) : Statement (.dataRespAccepted hi) := fun _ => rfl

theorem dataRespCrcRejected (hi : BitVec 3) : Statement (.dataRespCrcRejected hi) := fun _ => rfl

theorem dataRespWriteRejected (hi : BitVec 3) : Statement (.dataRespWriteRejected hi) := fun _ => rfl

end Sys2Proof.Laws.EncodeLength
end

