-- ==== Sys2Proof/Laws/Decode.lean ====
section
/-! SUPPORT. What decoding gives on packets: the lemmas a claim about a running operation's fetch needs. -/

namespace Sys2Proof
open Machine

/-- The indices of a valid configuration are distinct (R72). -/
theorem Config.valid_idx_nodup {c : Config} (h : c.valid = true) : (Cmd.all.map c.idx).Nodup := by
  simp only [Config.valid, Bool.and_eq_true, decide_eq_true_eq] at h
  exact h.1.1.1.1.1.2

/-- The budgets of a valid configuration are at least 1 (R8). -/
theorem Config.valid_budgets {c : Config} (h : c.valid = true) :
    ∀ n ∈ [c.respPollMax, c.tokenPollMax, c.drespPollMax, c.initPollMax, c.ocrPollMax], 1 ≤ n := by
  simp only [Config.valid, Bool.and_eq_true, decide_eq_true_eq] at h
  simp only [List.mem_cons, List.not_mem_nil, or_false, forall_eq_or_imp, forall_eq]
  have := h.1.1.1.1.1.1
  tauto

/-- The tokens a valid configuration sends are pairwise distinct, and no awaited token is the stop token (R90). -/
theorem Config.valid_tokens {c : Config} (h : c.valid = true) :
    c.tokStartSingle ≠ c.tokStartMultiWr ∧ c.tokStartSingle ≠ c.tokStopMultiWr
    ∧ c.tokStartMultiWr ≠ c.tokStopMultiWr ∧ c.tokStartMultiRd ≠ c.tokStopMultiWr := by
  simp only [Config.valid, Bool.and_eq_true, decide_eq_true_eq] at h
  have := h.1.1.1.1.2
  tauto

/-- No token of a valid configuration is `IDLE_FILL` (R8). -/
theorem Config.valid_not_idle {c : Config} (h : c.valid = true) :
    ∀ t ∈ [c.tokStartSingle, c.tokStartMultiWr, c.tokStartMultiRd, c.tokStopMultiWr], t ≠ c.idleFill := by
  simp only [Config.valid, Bool.and_eq_true, decide_eq_true_eq] at h
  simp only [List.mem_cons, List.not_mem_nil, or_false, forall_eq_or_imp, forall_eq]
  have := h.1.1.1.2
  tauto

/-- The block length of a valid configuration is 512 (R9, R27). -/
theorem Config.valid_blockLenOp {c : Config} (h : c.valid = true) : c.blockLenOp = 512 := by
  simp only [Config.valid, Bool.and_eq_true, decide_eq_true_eq] at h
  exact h.2

/-- No start token of a valid configuration is an error token, and neither is `IDLE_FILL` (R92). -/
theorem Config.valid_not_error_token {c : Config} (h : c.valid = true) :
    ∀ b ∈ [c.tokStartSingle, c.tokStartMultiWr, c.tokStartMultiRd, c.idleFill], b &&& c.errTokenMask ≠ 0 := by
  simp only [Config.valid, Bool.and_eq_true, decide_eq_true_eq] at h
  simp only [List.mem_cons, List.not_mem_nil, or_false, forall_eq_or_imp, forall_eq]
  exact ⟨h.1.2.1.1.1, h.1.2.1.1.2, h.1.2.1.2, h.1.2.2⟩

/-- Distinct indices (R72): the index of a command names it. -/
theorem cmdOfIdx_idx {c : Config} (h : c.valid = true) (k : Cmd) : cmdOfIdx c (c.idx k) = some k := by
  have hinj := List.inj_on_of_nodup_map (Config.valid_idx_nodup h)
  have hall : ∀ k : Cmd, k ∈ Cmd.all := by intro k; cases k <;> decide
  unfold cmdOfIdx
  rw [List.find?_eq_some_iff_append]
  refine ⟨by simp, ?_⟩
  obtain ⟨as, bs, hab⟩ := List.append_of_mem (hall k)
  refine ⟨as, bs, hab, fun a ha => ?_⟩
  simp only [Bool.not_eq_true', beq_eq_false_iff_ne]
  intro he
  have : a = k := hinj (hall a) (hall k) he
  subst this
  have hnd : Cmd.all.Nodup := by decide
  rw [hab] at hnd
  exact (List.nodup_append.1 hnd).2.2 a ha a (by simp) rfl

/-- The big-endian bytes of a word read back as it (R55, R58). -/
theorem ofBe_be32 (w : Word) : ofBe (be32 w) = w := by
  refine BitVec.eq_of_getLsbD_eq fun i hi => ?_
  simp only [ofBe, be32, List.foldl, BitVec.getLsbD_or, BitVec.getLsbD_shiftLeft, BitVec.getLsbD_setWidth,
    BitVec.getLsbD_extractLsb']
  by_cases h1 : i < 8
  · simp [h1, hi]
  by_cases h2 : i < 16
  · simp [hi, h1, show i - 8 < 8 by omega, show 8 + (i - 8) = i by omega, show i - 8 < 32 by omega]
  by_cases h3 : i < 24
  · simp [hi, h1, show ¬ i - 8 < 8 by omega, show i - 8 - 8 < 8 by omega,
      show 16 + (i - 8 - 8) = i by omega, show i - 8 - 8 < 32 by omega, show i - 8 < 32 by omega]
  · simp [hi, h1, show ¬ i - 8 < 8 by omega, show ¬ i - 8 - 8 < 8 by omega,
      show 24 + (i - 8 - 8 - 8) = i by omega, show i - 8 - 8 < 32 by omega, show i - 8 < 32 by omega,
      show i - 8 - 8 - 8 < 8 by omega, show i - 8 - 8 - 8 < 32 by omega]

/-- Decoding a packet gives the command, argument and CRC field it was built from. -/
theorem decodePacket_packet {c : Config} (h : c.valid = true) (k : Cmd) (arg : Word) (crc : BitVec 7) :
    decode c .packet (packet (c.idx k) arg crc) = .ok (.ofCmd k arg crc) := by
  have h1 : (packetByte0 (c.idx k)).extractLsb' 6 2 = 0b01#2 := by
    simp only [packetByte0]; generalize c.idx k = x; revert x; decide
  have h2 : (packetByte0 (c.idx k)).extractLsb' 0 6 = c.idx k := by
    simp only [packetByte0]; generalize c.idx k = x; revert x; decide
  have h3 : (crc ++ 1#1).getLsbD 0 = true := by revert crc; decide
  have h4 : (crc ++ 1#1).extractLsb' 1 7 = crc := by revert crc; decide
  have h5 := ofBe_be32 arg
  simp only [be32] at h5
  simp only [packet, packetHead, be32, List.cons_append, List.nil_append, decode, decodePacket, h1, h2, h3, h4, h5,
    cmdOfIdx_idx h]
  simp
end Sys2Proof
end

