-- ==== Sys2Proof/Laws/Port.lean ====
section
/-! SUPPORT. The fields that the port operations and `Issue` leave alone, one lemma per field. -/

namespace Sys2Proof.Machine

theorem PortOnly.cfg {s t : State} (h : PortOnly s t) : t.cfg = s.cfg := by
  obtain ⟨_, _, ht⟩ := h; rw [ht]
theorem PortOnly.sessionValid {s t : State} (h : PortOnly s t) : t.sessionValid = s.sessionValid := by
  obtain ⟨_, _, ht⟩ := h; rw [ht]
theorem PortOnly.family {s t : State} (h : PortOnly s t) : t.family = s.family := by
  obtain ⟨_, _, ht⟩ := h; rw [ht]
theorem PortOnly.generation {s t : State} (h : PortOnly s t) : t.generation = s.generation := by
  obtain ⟨_, _, ht⟩ := h; rw [ht]
theorem PortOnly.capClass {s t : State} (h : PortOnly s t) : t.capClass = s.capClass := by
  obtain ⟨_, _, ht⟩ := h; rw [ht]
theorem PortOnly.blockLen {s t : State} (h : PortOnly s t) : t.blockLen = s.blockLen := by
  obtain ⟨_, _, ht⟩ := h; rw [ht]
theorem PortOnly.clockMode {s t : State} (h : PortOnly s t) : t.clockMode = s.clockMode := by
  obtain ⟨_, _, ht⟩ := h; rw [ht]
theorem PortOnly.negState {s t : State} (h : PortOnly s t) : t.negState = s.negState := by
  obtain ⟨_, _, ht⟩ := h; rw [ht]
theorem PortOnly.opState {s t : State} (h : PortOnly s t) : t.opState = s.opState := by
  obtain ⟨_, _, ht⟩ := h; rw [ht]
theorem PortOnly.reqOp {s t : State} (h : PortOnly s t) : t.reqOp = s.reqOp := by
  obtain ⟨_, _, ht⟩ := h; rw [ht]
theorem PortOnly.reqAddr {s t : State} (h : PortOnly s t) : t.reqAddr = s.reqAddr := by
  obtain ⟨_, _, ht⟩ := h; rw [ht]
theorem PortOnly.reqLen {s t : State} (h : PortOnly s t) : t.reqLen = s.reqLen := by
  obtain ⟨_, _, ht⟩ := h; rw [ht]
theorem PortOnly.resultKind {s t : State} (h : PortOnly s t) : t.resultKind = s.resultKind := by
  obtain ⟨_, _, ht⟩ := h; rw [ht]
theorem PortOnly.resultValue {s t : State} (h : PortOnly s t) : t.resultValue = s.resultValue := by
  obtain ⟨_, _, ht⟩ := h; rw [ht]
theorem PortOnly.tb {s t : State} (h : PortOnly s t) : t.tb = s.tb := by
  obtain ⟨_, _, ht⟩ := h; rw [ht]
theorem PortOnly.hostIn {s t : State} (h : PortOnly s t) : t.hostIn = s.hostIn := by
  obtain ⟨_, _, ht⟩ := h; rw [ht]
theorem PortOnly.hostOut {s t : State} (h : PortOnly s t) : t.hostOut = s.hostOut := by
  obtain ⟨_, _, ht⟩ := h; rw [ht]
theorem PortOnly.refusedActs {s t : State} (h : PortOnly s t) : t.refusedActs = s.refusedActs := by
  obtain ⟨_, _, ht⟩ := h; rw [ht]

/-! `recv` -/

@[simp] theorem recv_cfg (s : State) : (recv s).2.cfg = s.cfg := (PortOnly.recv s).cfg
@[simp] theorem recv_sessionValid (s : State) : (recv s).2.sessionValid = s.sessionValid := (PortOnly.recv s).sessionValid
@[simp] theorem recv_family (s : State) : (recv s).2.family = s.family := (PortOnly.recv s).family
@[simp] theorem recv_generation (s : State) : (recv s).2.generation = s.generation := (PortOnly.recv s).generation
@[simp] theorem recv_capClass (s : State) : (recv s).2.capClass = s.capClass := (PortOnly.recv s).capClass
@[simp] theorem recv_blockLen (s : State) : (recv s).2.blockLen = s.blockLen := (PortOnly.recv s).blockLen
@[simp] theorem recv_clockMode (s : State) : (recv s).2.clockMode = s.clockMode := (PortOnly.recv s).clockMode
@[simp] theorem recv_negState (s : State) : (recv s).2.negState = s.negState := (PortOnly.recv s).negState
@[simp] theorem recv_opState (s : State) : (recv s).2.opState = s.opState := (PortOnly.recv s).opState
@[simp] theorem recv_reqOp (s : State) : (recv s).2.reqOp = s.reqOp := (PortOnly.recv s).reqOp
@[simp] theorem recv_reqAddr (s : State) : (recv s).2.reqAddr = s.reqAddr := (PortOnly.recv s).reqAddr
@[simp] theorem recv_reqLen (s : State) : (recv s).2.reqLen = s.reqLen := (PortOnly.recv s).reqLen
@[simp] theorem recv_resultKind (s : State) : (recv s).2.resultKind = s.resultKind := (PortOnly.recv s).resultKind
@[simp] theorem recv_resultValue (s : State) : (recv s).2.resultValue = s.resultValue := (PortOnly.recv s).resultValue
@[simp] theorem recv_tb (s : State) : (recv s).2.tb = s.tb := (PortOnly.recv s).tb
@[simp] theorem recv_hostIn (s : State) : (recv s).2.hostIn = s.hostIn := (PortOnly.recv s).hostIn
@[simp] theorem recv_hostOut (s : State) : (recv s).2.hostOut = s.hostOut := (PortOnly.recv s).hostOut
@[simp] theorem recv_refusedActs (s : State) : (recv s).2.refusedActs = s.refusedActs := (PortOnly.recv s).refusedActs

/-! `recvN` -/

@[simp] theorem recvN_cfg (n : Nat) (s : State) : (recvN n s).2.cfg = s.cfg := (PortOnly.recvN n s).cfg
@[simp] theorem recvN_sessionValid (n : Nat) (s : State) : (recvN n s).2.sessionValid = s.sessionValid := (PortOnly.recvN n s).sessionValid
@[simp] theorem recvN_family (n : Nat) (s : State) : (recvN n s).2.family = s.family := (PortOnly.recvN n s).family
@[simp] theorem recvN_generation (n : Nat) (s : State) : (recvN n s).2.generation = s.generation := (PortOnly.recvN n s).generation
@[simp] theorem recvN_capClass (n : Nat) (s : State) : (recvN n s).2.capClass = s.capClass := (PortOnly.recvN n s).capClass
@[simp] theorem recvN_blockLen (n : Nat) (s : State) : (recvN n s).2.blockLen = s.blockLen := (PortOnly.recvN n s).blockLen
@[simp] theorem recvN_clockMode (n : Nat) (s : State) : (recvN n s).2.clockMode = s.clockMode := (PortOnly.recvN n s).clockMode
@[simp] theorem recvN_negState (n : Nat) (s : State) : (recvN n s).2.negState = s.negState := (PortOnly.recvN n s).negState
@[simp] theorem recvN_opState (n : Nat) (s : State) : (recvN n s).2.opState = s.opState := (PortOnly.recvN n s).opState
@[simp] theorem recvN_reqOp (n : Nat) (s : State) : (recvN n s).2.reqOp = s.reqOp := (PortOnly.recvN n s).reqOp
@[simp] theorem recvN_reqAddr (n : Nat) (s : State) : (recvN n s).2.reqAddr = s.reqAddr := (PortOnly.recvN n s).reqAddr
@[simp] theorem recvN_reqLen (n : Nat) (s : State) : (recvN n s).2.reqLen = s.reqLen := (PortOnly.recvN n s).reqLen
@[simp] theorem recvN_resultKind (n : Nat) (s : State) : (recvN n s).2.resultKind = s.resultKind := (PortOnly.recvN n s).resultKind
@[simp] theorem recvN_resultValue (n : Nat) (s : State) : (recvN n s).2.resultValue = s.resultValue := (PortOnly.recvN n s).resultValue
@[simp] theorem recvN_tb (n : Nat) (s : State) : (recvN n s).2.tb = s.tb := (PortOnly.recvN n s).tb
@[simp] theorem recvN_hostIn (n : Nat) (s : State) : (recvN n s).2.hostIn = s.hostIn := (PortOnly.recvN n s).hostIn
@[simp] theorem recvN_hostOut (n : Nat) (s : State) : (recvN n s).2.hostOut = s.hostOut := (PortOnly.recvN n s).hostOut
@[simp] theorem recvN_refusedActs (n : Nat) (s : State) : (recvN n s).2.refusedActs = s.refusedActs := (PortOnly.recvN n s).refusedActs

/-! `issue` -/

@[simp] theorem issue_cfg (k : Cmd) (arg : Word) (s : State) : (issue k arg s).2.cfg = s.cfg := (PortOnly.issue k arg s).cfg
@[simp] theorem issue_sessionValid (k : Cmd) (arg : Word) (s : State) : (issue k arg s).2.sessionValid = s.sessionValid := (PortOnly.issue k arg s).sessionValid
@[simp] theorem issue_family (k : Cmd) (arg : Word) (s : State) : (issue k arg s).2.family = s.family := (PortOnly.issue k arg s).family
@[simp] theorem issue_generation (k : Cmd) (arg : Word) (s : State) : (issue k arg s).2.generation = s.generation := (PortOnly.issue k arg s).generation
@[simp] theorem issue_capClass (k : Cmd) (arg : Word) (s : State) : (issue k arg s).2.capClass = s.capClass := (PortOnly.issue k arg s).capClass
@[simp] theorem issue_blockLen (k : Cmd) (arg : Word) (s : State) : (issue k arg s).2.blockLen = s.blockLen := (PortOnly.issue k arg s).blockLen
@[simp] theorem issue_clockMode (k : Cmd) (arg : Word) (s : State) : (issue k arg s).2.clockMode = s.clockMode := (PortOnly.issue k arg s).clockMode
@[simp] theorem issue_negState (k : Cmd) (arg : Word) (s : State) : (issue k arg s).2.negState = s.negState := (PortOnly.issue k arg s).negState
@[simp] theorem issue_opState (k : Cmd) (arg : Word) (s : State) : (issue k arg s).2.opState = s.opState := (PortOnly.issue k arg s).opState
@[simp] theorem issue_reqOp (k : Cmd) (arg : Word) (s : State) : (issue k arg s).2.reqOp = s.reqOp := (PortOnly.issue k arg s).reqOp
@[simp] theorem issue_reqAddr (k : Cmd) (arg : Word) (s : State) : (issue k arg s).2.reqAddr = s.reqAddr := (PortOnly.issue k arg s).reqAddr
@[simp] theorem issue_reqLen (k : Cmd) (arg : Word) (s : State) : (issue k arg s).2.reqLen = s.reqLen := (PortOnly.issue k arg s).reqLen
@[simp] theorem issue_resultKind (k : Cmd) (arg : Word) (s : State) : (issue k arg s).2.resultKind = s.resultKind := (PortOnly.issue k arg s).resultKind
@[simp] theorem issue_resultValue (k : Cmd) (arg : Word) (s : State) : (issue k arg s).2.resultValue = s.resultValue := (PortOnly.issue k arg s).resultValue
@[simp] theorem issue_tb (k : Cmd) (arg : Word) (s : State) : (issue k arg s).2.tb = s.tb := (PortOnly.issue k arg s).tb
@[simp] theorem issue_hostIn (k : Cmd) (arg : Word) (s : State) : (issue k arg s).2.hostIn = s.hostIn := (PortOnly.issue k arg s).hostIn
@[simp] theorem issue_hostOut (k : Cmd) (arg : Word) (s : State) : (issue k arg s).2.hostOut = s.hostOut := (PortOnly.issue k arg s).hostOut
@[simp] theorem issue_refusedActs (k : Cmd) (arg : Word) (s : State) : (issue k arg s).2.refusedActs = s.refusedActs := (PortOnly.issue k arg s).refusedActs

/-! `issueApp` -/

@[simp] theorem issueApp_cfg (k : Cmd) (arg : Word) (s : State) : (issueApp k arg s).2.cfg = s.cfg := (PortOnly.issueApp k arg s).cfg
@[simp] theorem issueApp_sessionValid (k : Cmd) (arg : Word) (s : State) : (issueApp k arg s).2.sessionValid = s.sessionValid := (PortOnly.issueApp k arg s).sessionValid
@[simp] theorem issueApp_family (k : Cmd) (arg : Word) (s : State) : (issueApp k arg s).2.family = s.family := (PortOnly.issueApp k arg s).family
@[simp] theorem issueApp_generation (k : Cmd) (arg : Word) (s : State) : (issueApp k arg s).2.generation = s.generation := (PortOnly.issueApp k arg s).generation
@[simp] theorem issueApp_capClass (k : Cmd) (arg : Word) (s : State) : (issueApp k arg s).2.capClass = s.capClass := (PortOnly.issueApp k arg s).capClass
@[simp] theorem issueApp_blockLen (k : Cmd) (arg : Word) (s : State) : (issueApp k arg s).2.blockLen = s.blockLen := (PortOnly.issueApp k arg s).blockLen
@[simp] theorem issueApp_clockMode (k : Cmd) (arg : Word) (s : State) : (issueApp k arg s).2.clockMode = s.clockMode := (PortOnly.issueApp k arg s).clockMode
@[simp] theorem issueApp_negState (k : Cmd) (arg : Word) (s : State) : (issueApp k arg s).2.negState = s.negState := (PortOnly.issueApp k arg s).negState
@[simp] theorem issueApp_opState (k : Cmd) (arg : Word) (s : State) : (issueApp k arg s).2.opState = s.opState := (PortOnly.issueApp k arg s).opState
@[simp] theorem issueApp_reqOp (k : Cmd) (arg : Word) (s : State) : (issueApp k arg s).2.reqOp = s.reqOp := (PortOnly.issueApp k arg s).reqOp
@[simp] theorem issueApp_reqAddr (k : Cmd) (arg : Word) (s : State) : (issueApp k arg s).2.reqAddr = s.reqAddr := (PortOnly.issueApp k arg s).reqAddr
@[simp] theorem issueApp_reqLen (k : Cmd) (arg : Word) (s : State) : (issueApp k arg s).2.reqLen = s.reqLen := (PortOnly.issueApp k arg s).reqLen
@[simp] theorem issueApp_resultKind (k : Cmd) (arg : Word) (s : State) : (issueApp k arg s).2.resultKind = s.resultKind := (PortOnly.issueApp k arg s).resultKind
@[simp] theorem issueApp_resultValue (k : Cmd) (arg : Word) (s : State) : (issueApp k arg s).2.resultValue = s.resultValue := (PortOnly.issueApp k arg s).resultValue
@[simp] theorem issueApp_tb (k : Cmd) (arg : Word) (s : State) : (issueApp k arg s).2.tb = s.tb := (PortOnly.issueApp k arg s).tb
@[simp] theorem issueApp_hostIn (k : Cmd) (arg : Word) (s : State) : (issueApp k arg s).2.hostIn = s.hostIn := (PortOnly.issueApp k arg s).hostIn
@[simp] theorem issueApp_hostOut (k : Cmd) (arg : Word) (s : State) : (issueApp k arg s).2.hostOut = s.hostOut := (PortOnly.issueApp k arg s).hostOut
@[simp] theorem issueApp_refusedActs (k : Cmd) (arg : Word) (s : State) : (issueApp k arg s).2.refusedActs = s.refusedActs := (PortOnly.issueApp k arg s).refusedActs

end Sys2Proof.Machine
end

