-- ==== Sys2Proof/Laws/Running.lean ====
section
/-! SUPPORT. What a claim about a running operation needs: the part of the invariant that holds at every
position, kept by the port operations and by the moves between positions; the fetch of a command. -/

namespace Sys2Proof.Machine

/-- The invariant of a running operation apart from its position. -/
structure Running (s : State) : Prop where
  cfg : s.cfg.valid = true
  session : s.sessionValid = true → s.negState = .ready ∧ s.blockLen = some s.cfg.blockLenOp
    ∧ s.clockMode = .fast ∧ Classified true true true s
  tb : Mem.wf s.tb ∧ ∀ p ∈ s.tb, p.1 < tbSize s.cfg
  operands : (∀ a ∈ s.reqAddr, a < 2 ^ s.cfg.addrW) ∧ ∀ l ∈ s.reqLen, l < 2 ^ s.cfg.addrW
  on : portRun s.bus = some true
  result : s.resultKind ≠ some 7 ∧ s.resultKind ≠ some 8

/-- A busy state that keeps the invariant. -/
theorem Inv.running {s : State} {p} (h : Inv s) (hp : s.opState = .busy p) : Running s :=
  ⟨h.cfg, h.session, h.tb, h.operands, by rw [h.bracket, hp]; rfl, h.result⟩

/-- R38 (a), R9: the block length of a session is 512. -/
theorem Inv.session_blockLen {s : State} (h : Inv s) (hs : s.sessionValid = true) : s.blockLen = some 512 := by
  rw [(h.session hs).2.1, Config.valid_blockLenOp h.cfg]

/-- Port operations keep it. -/
theorem Running.port {s t : State} (h : Running s) (p : PortOnly s t) : Running t := by
  obtain ⟨es, hes, ht⟩ := p
  have hb : t.bus = s.bus ++ es := by rw [ht]
  refine ⟨by rw [ht]; exact h.cfg, ?_, by rw [ht]; exact h.tb, by rw [ht]; exact h.operands, by rw [hb]; exact portRun_port es h.on hes, by rw [ht]; exact h.result⟩
  rw [ht]; exact h.session

/-- With what holds at its position it is the invariant. -/
theorem Running.goPos {t : State} {p} (h : Running t) (hp : t.opState = .busy p) (hq : PosInv t p) : Inv t := by
  refine ⟨h.cfg, h.session, h.tb, h.operands, by rw [h.on, hp]; rfl, by simp [hp], h.result, ?_⟩
  intro q hqq
  rw [hp] at hqq
  cases hqq
  exact hq

/-- Moving to a position that issues no command. -/
theorem Running.setPos {s : State} {p} (h : Running s) (hq : PosInv (setPos p s) p) : Inv (setPos p s) :=
  Running.goPos (p := p) ⟨h.cfg, h.session, h.tb, h.operands, h.on, h.result⟩ rfl hq

/-- Moving to a position that issues a command. -/
theorem Running.goCmd {s : State} {p k a} (h : Running s) (hq : PosInv (goCmd p k a s) p) : Inv (goCmd p k a s) :=
  Running.goPos (p := p) ⟨h.cfg, h.session, h.tb, h.operands, h.on, h.result⟩ rfl hq

/-- Ending an operation after its `Select()` (R268). -/
theorem Running.endOp {s : State} (h : Running s) (o : OpClass) (r : Option ErrorKind)
    (hr : r ≠ some .registerFetchFailed ∧ r ≠ some .registerCrcInvalid)
    (ho : o = .negotiation → r = none ∨ s.sessionValid = false) : Inv (endOp o r s) := by
  refine ⟨?_, ?_, ?_, ?_, ?_, ?_, ?_, ?_⟩
  · cases r <;> cases o <;> exact h.cfg
  · intro hv
    cases r with
    | none => exact h.session hv
    | some e =>
      cases o with
      | negotiation =>
        rcases ho rfl with h' | h'
        · cases h'
        · change s.sessionValid = true at hv
          rw [h'] at hv; cases hv
      | blockIO => cases hv
      | status => exact h.session hv
  · cases r <;> cases o <;> exact h.tb
  · cases r <;> cases o <;> exact h.operands
  · have : (Machine.endOp o r s).bus = s.bus ++ [.deselect] := by cases r <;> cases o <;> rfl
    rw [this, portRun_deselect h.on]; rfl
  · intro _; exact ⟨rfl, rfl⟩
  · constructor <;>
    · change some (resultCode r) ≠ _
      cases r with
      | none => decide
      | some e => cases e <;> first | decide | simp at hr
  · intro p hp; cases hp

/-- `raise e` inside `INIT` (R184). -/
theorem Running.raiseInit {s : State} (h : Running s) (e : ErrorKind) (he : e ≠ .registerFetchFailed ∧ e ≠ .registerCrcInvalid)
    (hs : s.sessionValid = false) : Inv (raiseInit e s) :=
  h.endOp .negotiation (some e) (by simpa using he) (fun _ => .inr hs)

/-- Ending an operation with success. -/
theorem Running.endGood {s : State} (h : Running s) (o : OpClass) : Inv (Machine.endOp o none s) :=
  h.endOp o none (by decide) (fun _ => .inl rfl)
/-- Ending an operation other than `INIT` with an error. -/
theorem Running.endBad {s : State} (h : Running s) (o : OpClass) (e : ErrorKind) (ho : o ≠ .negotiation)
    (hr : some e ≠ some ErrorKind.registerFetchFailed ∧ some e ≠ some ErrorKind.registerCrcInvalid)  : Inv (Machine.endOp o (some e) s) :=
  h.endOp o _ hr (fun h => absurd h ho)

/-- Taking the host's action away keeps the invariant. -/
theorem Inv.hostIn {s : State} (h : Inv s) (l) : Inv { s with hostIn := l } :=
  ⟨h.cfg, h.session, h.tb, h.operands, h.bracket, h.ephemeral, h.result, fun p hp => by
    have := h.pos p hp
    cases p <;> exact this⟩

/-- At a position that issues a command, the step runs that command (R131, R133). -/
theorem fetch_packet {s : State} (hv : s.cfg.valid = true) (k : Cmd) (arg : Word) (h : s.pkt = frame (s.cfg.idx k) arg) :
    ∃ crc, fetchPacket s = .run (.ofCmd k arg crc) s := by
  have : frame (s.cfg.idx k) arg = packet (s.cfg.idx k) arg (crc7 (packetHead (s.cfg.idx k) arg)) := by
    unfold frame packet crc7TxByte
    congr 2
    generalize crc7 _ = c
    revert c; decide
  refine ⟨crc7 (packetHead (s.cfg.idx k) arg), ?_⟩
  unfold fetchPacket
  rw [h, this, decodePacket_packet hv]

end Sys2Proof.Machine
end

