-- ==== Sys2Proof/Laws/Claims.lean ====
section
/-! SUPPORT. The vocabulary of the statements beside the operations it speaks of: `recv`, `recvN` and the
response poll in terms of the coming answers, the fetch and the run of a running operation. -/

namespace Sys2Proof.Claims
open Sys2Proof.Machine

/-- `Recv` gives the next answer. -/
theorem recv_eq (s : State) : recv s = (answer s 0, received 1 s) := by
  unfold recv answer received
  cases h : s.cardIn with
  | nil => simp [answer, h, List.range_succ]
  | cons b r => simp [answer, h, List.range_succ]

/-- The answers after some were received. -/
theorem answer_received (s : State) (n i : Nat) : answer (received n s) i = answer s (n + i) := by
  unfold answer received
  simp only [List.getElem?_drop, List.length_drop]
  split
  · rfl
  · next h =>
    have : s.cardIn.length ≤ n + i := by simpa using h
    congr 1; omega

/-- Receiving nothing. -/
theorem received_zero (s : State) : received 0 s = s := by
  simp [received]

/-- Receiving twice. -/
theorem received_received (s : State) (n m : Nat) : received m (received n s) = received (n + m) s := by
  have : (List.range m).map (answer (received n s)) = (List.range m).map fun i => answer s (n + i) := by
    apply List.map_congr_left; intro i _; exact answer_received s n i
  rw [show received m (received n s) = { received n s with
      cardIn := (received n s).cardIn.drop m
      draws := (received n s).draws + (m - (received n s).cardIn.length)
      bus := (received n s).bus ++ ((List.range m).map (answer (received n s))).map .recv } from rfl, this]
  simp only [received, List.drop_drop, List.range_add, List.map_append, List.map_map, List.length_drop, List.append_assoc]
  congr 1
  omega

/-- A read by count gives the next answers in order (R78). -/
theorem recvN_eq (n : Nat) (s : State) : recvN n s = ((List.range n).map (answer s), received n s) := by
  induction n generalizing s with
  | zero => simp [recvN, received_zero]
  | succ n ih =>
    simp only [recvN, recv_eq, ih, received_received]
    refine Prod.ext ?_ (by simp [Nat.add_comm])
    simp [List.range_succ_eq_map, answer_received]
    intro a _; congr 1; omega

/-- Everything the response poll can do (R133): the first answer that is not idle, or a timeout. -/
theorem poll_cases (n : Nat) (s : State) :
    (∃ m, m < n ∧ (∀ i, i < m → answer s i = s.cfg.idleFill) ∧ answer s m ≠ s.cfg.idleFill ∧ pollNonIdle n s = (some (answer s m), received (m+1) s))
    ∨ ((∀ i, i < n → answer s i = s.cfg.idleFill) ∧ pollNonIdle n s = (none, received n s)) := by
  induction n generalizing s with
  | zero => exact .inr ⟨by simp, by simp [pollNonIdle, received_zero]⟩
  | succ n ih =>
    simp only [pollNonIdle, recv_eq]
    by_cases h0 : answer s 0 = s.cfg.idleFill
    · rw [if_pos h0]
      have hl : ∀ m, (∀ i, i < m → answer (received 1 s) i = s.cfg.idleFill) → ∀ i, i < m + 1 → answer s i = s.cfg.idleFill := by
        intro m h i hi
        cases i with
        | zero => exact h0
        | succ i => rw [Nat.add_comm, ← answer_received]; exact h i (by omega)
      rcases ih (received 1 s) with ⟨m, h1, h2, h3, h4⟩ | ⟨h1, h2⟩
      · refine .inl ⟨m + 1, by omega, hl m h2, ?_, ?_⟩
        · rw [answer_received, Nat.add_comm] at h3; exact h3
        · rw [h4, received_received, answer_received, Nat.add_comm 1 m, Nat.add_comm 1 (m+1)]
      · exact .inr ⟨hl n h1, by rw [h2, received_received, Nat.add_comm]⟩
    · rw [if_neg h0]
      exact .inl ⟨0, by omega, by simp, h0, rfl⟩

/-- With no host action to take first the operation goes on. -/
theorem unhurried_fetch {s : State} {p} (h : Unhurried s) (hp : s.opState = .busy p) : fetch s = fetchAt p s := by
  rcases h with h | ⟨r, h⟩ <;> simp [fetch, hp, h]

/-- The model's move at a block of a read is the claims'. -/
theorem readNext_eq (x s) : readNext x s = readOn x s := by
  unfold readNext readOn Xfer.hasBlock; simp only [decide_eq_true_eq]; rfl

/-- The model's move at a block of a write is the claims'. -/
theorem writeNext_eq (x s) : writeNext x s = writeOn x s := by
  unfold writeNext writeOn Xfer.hasBlock; simp only [decide_eq_true_eq]; rfl

/-- The response of a block command, in the claims' words (R213). -/
theorem blockCmdResp_eq (go go' : State → State) (hgo : ∀ u, go u = go' u) (o : Issued × State) : blockCmdResp go o = (match o with
          | (.timeout, u) => ioFailed 1 u
          | (.response r _, u) => if r = 0 then go' u else ioFailed (cmdError r) u) := by
  rcases o with ⟨_ | ⟨r, bs⟩, u⟩
  · rfl
  · simp only [blockCmdResp, checkCmdResp, r1Ok, r1AddrErr, r1ParamErr, beq_iff_eq, cmdError]
    by_cases h : r = 0
    · subst h; simp [hgo]
    · have h' : ¬ r = 0x00 := h
      simp only [h', if_false]
      by_cases h5 : r.getLsbD 5
      · simp only [h5, if_true]; rfl
      · by_cases h6 : r.getLsbD 6
        · simp only [h5, h6, if_true]; rfl
        · simp only [h5, h6]; rfl

/-- A run of one step more. -/
theorem runs_succ (n s) : runs (n + 1) s = (match step s with | .next t => runs n t | .fault r => .fault r | .refused r => .refused r) := by
  have h := Host.Core.run.eq_2 Sys2Proof.core s n
  cases hs : step s with
  | next t =>
    have h2 : Sys2Proof.core.step s = .next t := hs
    rw [h2] at h; exact h
  | fault t =>
    have h2 : Sys2Proof.core.step s = .fault t := hs
    rw [h2] at h; exact h
  | refused t =>
    have h2 : Sys2Proof.core.step s = .refused t := hs
    rw [h2] at h; exact h

/-- The state after the answers `bs` were received and `rest` is listed still. -/
def took (n : List Byte) (rest : List Byte) (s : State) : State := { s with cardIn := rest, bus := s.bus ++ n.map .recv }

/-- Taking twice. -/
theorem took_took (a b r r' : List Byte) (s) : took b r' (took a r s) = took (a ++ b) r' s := by
  simp [took, List.append_assoc]

/-- `Recv` of a listed answer. -/
theorem recv_list {s : State} {b r} (h : s.cardIn = b :: r) : recv s = (b, took [b] r s) := by
  unfold recv; rw [h]; rfl
/-- A read by count of listed answers. -/
theorem recvN_list (bs r : List Byte) (s : State) (h : s.cardIn = bs ++ r) : recvN bs.length s = (bs, took bs r s) := by
  induction bs generalizing s with
  | nil => simp at h; simp [recvN, took, ← h]
  | cons b bs ih =>
    simp only [List.length_cons, recvN]
    rw [recv_list (r := bs ++ r) (by simpa using h)]
    dsimp only
    rw [ih _ (by rfl)]
    simp [took_took]
/-- A poll whose listed answers are idle bytes and then a response. -/
theorem poll_list (m n : Nat) (b : Byte) (r : List Byte) (s : State) (hm : m < n) (hb : b ≠ s.cfg.idleFill)
  (h : s.cardIn = List.replicate m s.cfg.idleFill ++ b :: r) :
  pollNonIdle n s = (some b, took (List.replicate m s.cfg.idleFill ++ [b]) r s) := by
  induction m generalizing n s with
  | zero =>
    obtain ⟨n, rfl⟩ : ∃ k, n = k + 1 := ⟨n - 1, by omega⟩
    simp only [pollNonIdle]
    rw [recv_list (by simpa using h)]
    dsimp only
    rw [if_neg (by exact hb)]; rfl
  | succ m ih =>
    obtain ⟨n, rfl⟩ : ∃ k, n = k + 1 := ⟨n - 1, by omega⟩
    simp only [pollNonIdle]
    rw [recv_list (b := s.cfg.idleFill) (r := List.replicate m s.cfg.idleFill ++ b :: r) (by simpa [List.replicate_succ] using h)]
    dsimp only
    rw [if_pos rfl, ih n (took _ _ s) (by omega) hb (by rfl), took_took]
    rfl

end Sys2Proof.Claims
end

