-- ==== Sys2Proof/Tests/Slice0.lean ====
section
/-! SUPPORT. Tests of the model on small cases, their expected results from the examples and the test vectors of
spec/ (95_test_vectors.md, and the packets of R140-R152), and for every statement with hypotheses a witness that
meets them. -/

namespace Sys2Proof.Tests
open Sys2Proof.Machine Sys2Proof.Claims

-- One theorem at a time: many that wait for one another would each hold a thread.
set_option Elab.async false

/-! ## WellFormed: one ill-formed term for each check -/

theorem test_wf_packet : Instr.wellFormed Config.standard (.cmdReset 0 0x4A) = true := by decide +kernel
/-- The CRC field must be CRC7 (R74). -/
theorem test_ill_crc : Instr.wellFormed Config.standard (.cmdReset 0 0x4B) = false := by decide +kernel
/-- A command without an argument takes 0 only (R73); the CRC field is right. -/
theorem test_ill_zero_arg :
    Instr.wellFormed Config.standard (.cmdReset 1 (crc7 (packetHead 0 1))) = false := by decide +kernel
/-- The voltage check has one argument (R73). -/
theorem test_ill_if_cond :
    Instr.wellFormed Config.standard (.cmdIfCond 0x1AB (crc7 (packetHead 8 0x1AB))) = false := by decide +kernel
/-- The set-block-length command has one argument (R73). -/
theorem test_ill_block_len :
    Instr.wellFormed Config.standard (.cmdSetBlockLen 0x400 (crc7 (packetHead 16 0x400))) = false := by
  decide +kernel
/-- Only bit 30 may be set in the negotiation command's argument (R73). -/
theorem test_ill_op_cond :
    Instr.wellFormed Config.standard (.acmd41 0x80000000 (crc7 (packetHead 41 0x80000000))) = false := by
  decide +kernel
/-- A byte with a bit of the mask is no error token (R92). -/
theorem test_ill_error_token : Instr.wellFormed Config.standard (.errorToken 0x20) = false := by decide

/-! ## Decoding: words written out from R71, R76, R88-R93, R98 -/

/-- R98: the sixteen codes. -/
theorem test_decode_host_ops :
    [[0b0000], [0b0001], [0b0010], [0b0011], [0b0100], [0b0101], [0b0110], [0b0111], [0b1000], [0b1001], [0b1010],
      [0b1011], [0b1100], [0b1101], [0b1110], [0b1111]].map (decode Config.standard .hostOp)
    = [Instr.reserved0, .init, .readBlock, .writeBlock, .readBlocks, .writeBlocks, .readStatus, .getIsMmc,
        .getBlockLen, .getIsHc, .reservedA, .eraseOutOfScope, .getSizeOutOfScope, .reservedD, .reservedE,
        .reservedF].map Except.ok := by decide +kernel

/-- R71, bit by bit: start 0, transmission 1, index 010000, argument 512, CRC7 0001010, end bit 1 (R145). -/
theorem test_decode_packet_bits :
    decode Config.standard .packet [0b01010000, 0b00000000, 0b00000000, 0b00000010, 0b00000000, 0b00010101]
      = .ok (.cmdSetBlockLen 512 0b0001010) := by decide +kernel

/-- R140-R145: the packets written there. -/
theorem test_decode_commands :
    [[0x40, 0x00, 0x00, 0x00, 0x00, 0x95], [0x41, 0x00, 0x00, 0x00, 0x00, 0xF9], [0x48, 0x00, 0x00, 0x01, 0xAA, 0x87],
      [0x4C, 0x00, 0x00, 0x00, 0x00, 0x61], [0x4D, 0x00, 0x00, 0x00, 0x00, 0x0D],
      [0x50, 0x00, 0x00, 0x02, 0x00, 0x15]].map (decode Config.standard .packet)
    = [Instr.cmdReset 0 0x4A, .cmdSendOpCond 0 0x7C, .cmdIfCond 0x1AA 0x43, .cmdStopTransmission 0 0x30,
        .cmdSendStatus 0 0x06, .cmdSetBlockLen 0x200 0x0A].map Except.ok := by decide +kernel

/-- R146-R152: the packets written there. -/
theorem test_decode_more_commands :
    [[0x51, 0x00, 0x00, 0x00, 0x00, 0x55], [0x52, 0x00, 0x00, 0x00, 0x00, 0xE1], [0x58, 0x00, 0x00, 0x00, 0x00, 0x6F],
      [0x59, 0x00, 0x00, 0x00, 0x00, 0x03], [0x69, 0x40, 0x00, 0x00, 0x00, 0x77], [0x77, 0x00, 0x00, 0x00, 0x00, 0x65],
      [0x7A, 0x00, 0x00, 0x00, 0x00, 0xFD]].map (decode Config.standard .packet)
    = [Instr.cmdReadSingle 0 0x2A, .cmdReadMulti 0 0x70, .cmdWriteSingle 0 0x37, .cmdWriteMulti 0 0x01,
        .cmdAppOpCond 0x40000000 0x3B, .cmdAppPrefix 0 0x32, .cmdReadOcr 0 0x7E].map Except.ok := by decide +kernel

/-- R101, R153: the application command is its two packets; R150 gives both arguments. -/
theorem test_decode_acmd41 :
    decode Config.standard .packet [0x77, 0, 0, 0, 0, 0x65, 0x69, 0x40, 0, 0, 0, 0x77] = .ok (.acmd41 0x40000000 0x3B)
    ∧ decode Config.standard .packet [0x77, 0, 0, 0, 0, 0x65, 0x69, 0, 0, 0, 0, 0xE5] = .ok (.acmd41 0 0x72) := by
  decide +kernel

/-- R88, R90, R92: what a read waits for; 0xFC is no token of a single-block read (T-RB-9). -/
theorem test_decode_rx_tokens :
    decode Config.standard (.rxToken false) [0b11111110] = .ok .tokStartSingle
    ∧ decode Config.standard (.rxToken true) [0b11111100] = .ok .tokStartMultiRd
    ∧ decode Config.standard (.rxToken false) [0b00001000] = .ok (.errorToken 0x08)
    ∧ decode Config.standard (.rxToken true) [0x1F] = .ok (.errorToken 0x1F)
    ∧ decode Config.standard (.rxToken false) [0xFC] = .error (.notAToken 0xFC)
    ∧ decode Config.standard (.rxToken false) [0x20] = .error (.notAToken 0x20) := by decide

/-- R88, R89, R91: what a write sends. -/
theorem test_decode_tx_tokens :
    decode Config.standard .txToken [0b11111110] = .ok .tokStartSingle
    ∧ decode Config.standard .txToken [0b11111100] = .ok .tokStartMultiWr
    ∧ decode Config.standard .txToken [0b11111101] = .ok .tokStopMultiWr
    ∧ decode Config.standard .txToken [0xFF] = .error (.notAToken 0xFF) := by decide

/-- R93: three ignored bits, then five of status; 0x1F and 0x07 are unknown (T-DR-7, T-DR-8). -/
theorem test_decode_data_responses :
    decode Config.standard .dataResp [0b11100101] = .ok (.dataRespAccepted 0b111)
    ∧ decode Config.standard .dataResp [0b00001011] = .ok (.dataRespCrcRejected 0)
    ∧ decode Config.standard .dataResp [0b01001101] = .ok (.dataRespWriteRejected 0b010)
    ∧ decode Config.standard .dataResp [0x1F] = .error (.notAToken 0x1F)
    ∧ decode Config.standard .dataResp [0x07] = .error (.notAToken 0x07) := by decide

/-- Each rejection by its name (R71, R76, R77, R97). -/
theorem test_rejections :
    decode Config.standard .packet [0xC0, 0, 0, 0, 0, 0x95] = .error .badStartBits
    ∧ decode Config.standard .packet [0x40, 0, 0, 0, 0, 0x94] = .error .badEndBit
    ∧ decode Config.standard .packet [0x42, 0, 0, 0, 0, 0x01] = .error (.unknownIndex 2)
    ∧ decode Config.standard .packet [0x40, 0, 0, 0, 0] = .error .badLength
    ∧ decode Config.standard .hostOp [0x10] = .error .badReqOp
    ∧ decode Config.standard .packet [0x77, 0, 0, 0, 0, 0x65, 0x41, 0, 0, 0, 0, 0xF9] = .error .notAppPair := by
  decide +kernel

/-- Words as the opcode table numbers them (R102): bit 47 is the first bit sent. -/
theorem test_table_words :
    decodeTableWord 8 0x1 = some .init ∧ decodeTableWord 8 0xFE = some .tokStartSingle
    ∧ decodeTableWord 48 0x500000020015 = some (.cmdSetBlockLen 512 0x0A)
    ∧ decodeTableWord 48 0x420000000001 = none := by decide +kernel

/-- A placed word is what the next step runs (log 14): `READ_BLOCK` right after reset is refused (R210). -/
theorem test_placed_word :
    step (State.reset.withFetchWord 8 0x2) = exec .readBlock (State.reset.withFetchWord 8 0x2 |> fun s => { s with hostIn := [] })
    ∧ step (State.reset.withFetchWord 8 0x2) = .refused .noSession := ⟨rfl, rfl⟩

/-! ## CRC (spec/95_test_vectors.md) -/

/-- T-C7: "123456789" gives 0x75 (T-C7-11), and the byte sent is `(0x75 << 1) | 1`. -/
theorem test_crc7 :
    crc7 [0x31, 0x32, 0x33, 0x34, 0x35, 0x36, 0x37, 0x38, 0x39] = 0x75
    ∧ crc7TxByte [0x31, 0x32, 0x33, 0x34, 0x35, 0x36, 0x37, 0x38, 0x39] = 0xEB := by decide +kernel

/-- R115: `CRC16([0x01]) = 0x1021`, sent most significant byte first (R118). -/
theorem test_crc16 : crc16Gen [0x01] = [0x10, 0x21] ∧ crc16Check [0x01] 0x10 0x21 = true
    ∧ crc16Check [0x01] 0x21 0x10 = false := by decide +kernel

/-! ## States -/

/-- The state after reset, inside an operation. -/
def busyAt (p : Pos) (cards : List Byte) : State := { State.reset with opState := .busy p, cardIn := cards }

/-- A high-capacity session, as `INIT` leaves it. -/
def session : State :=
  { State.reset with
    sessionValid := true
    family := some .sd
    generation := some .v2
    capClass := some .high
    blockLen := some 512
    clockMode := .fast
    negState := .ready
    reqOp := some 2
    reqAddr := some 0x400
    reqLen := some 0x400
    resultKind := some 0 }

/-- `INIT` at its first command. -/
def starting (cards : List Byte) : State :=
  { busyAt .reset cards with pkt := frame 0 0, bus := [.setClock 0, .select] }

/-- `INIT` at step 6 of a high-capacity card. -/
def finishing : State :=
  { busyAt .step6 [] with
    negState := .capacityClassified
    family := some .sd
    generation := some .v2
    capClass := some .high
    bus := [.setClock 0, .select] }

/-- `READ_STATUS` at its command. -/
def asking (cards : List Byte) : State :=
  { session with opState := .busy .sendStatus, cardIn := cards, pkt := frame 13 0, bus := [.select] }

/-- `READ_BLOCK` at its token poll. -/
def polling (cards : List Byte) : State :=
  { session with opState := .busy (.readToken .single 1), cardIn := cards, bus := [.select] }

/-- 512 bytes of TB. -/
def page : List Byte := List.replicate 512 0x55

/-- `WRITE_BLOCK` before its frame. -/
def sending : State :=
  { session with opState := .busy (.writeFrame .single), tb := Mem.write [] 0 page, bus := [.select] }

/-! ## Steps -/

/-- T-ET-4: bit 2 before bit 1; a single-block read ends with code 13 and the session is invalid. -/
theorem test_error_token :
    step (polling [0x06]) = .next (ioFailed 13 (received 1 (polling [0x06]))) := rfl

/-- T-RB-8: the token poll skips 0xFF; the second attempt is next. -/
theorem test_token_skipped :
    step (polling [0xFF, 0x04]) = .next (movedTo (.readToken .single 2) (received 1 (polling [0xFF, 0x04]))) := rfl

/-- V7: a voltage-check response with the illegal bit makes the generation legacy; the echo is not validated. -/
theorem test_legacy :
    exec (.cmdIfCond 0x1AA 0x43) (busyAt .ifCond [0x05, 0xFF, 0xFF, 0xFF, 0xFF])
      = .next (issuesNext .ocrFamily .readOcr 0 { (issue .ifCond 0x1AA (busyAt .ifCond [0x05, 0xFF, 0xFF, 0xFF, 0xFF])).2 with
          generation := some .legacy, negState := .voltageChecked }) := rfl

/-- R160: the two response bytes, the first one high. -/
theorem test_status :
    (match exec (.cmdSendStatus 0 0x06) (asking [0x00, 0x80]) with
      | .next t => t.resultValue
      | _ => none) = some 0x0080 := rfl

/-- R172: a response without the idle bit is `ResetFailed`. -/
theorem test_reset_failed :
    (match step (starting [0x00]) with
      | .next t => (t.resultKind, t.negState)
      | _ => (none, .powerOn)) = (some 2, .failed) := by decide +kernel

/-- R211: a misaligned address is code 9, before any bus event. -/
theorem test_misaligned :
    exec .readBlock { session with reqAddr := some 0x401 }
      = .next { session with reqAddr := some 0x401, resultKind := some 9 } := rfl

/-- R53: a high-capacity card is sent the block index. -/
theorem test_wire_address :
    (match exec .readBlock session with
      | .next t => t.pkt
      | _ => []) = frame 17 2 := rfl

/-- R54: a high-capacity block index that does not fit 32 bits is refused, the last that fits is sent. -/
theorem test_wire_address_wide :
    exec .readBlock { session with
        cfg := { Config.standard with addrW := 42 }, reqAddr := some (2 ^ 41) } = .refused .addressTooWide
    ∧ wireArg .high 512 (2 ^ 41 - 512) = some 0xFFFFFFFF := ⟨rfl, by decide⟩

/-- R92: a fill byte that is an error token, or a start token without bits 7:5 = 0b111, makes no configuration;
nor does a token equal to the fill byte (R8), or a block length other than 512 (R9, D38). -/
theorem test_ill_config :
    { Config.standard with idleFill := 0x1F }.valid = false
    ∧ { Config.standard with tokStartMultiWr := 0x1C, tokStartMultiRd := 0xFE }.valid = false
    ∧ { Config.standard with tokStartSingle := 0x7E }.valid = false
    ∧ { Config.standard with idleFill := 0xFE }.valid = false
    ∧ { Config.standard with blockLenOp := 1024 }.valid = false
    ∧ { Config.standard with tokStartMultiRd := 0xFE }.valid = true := by decide

/-- R310: a start while an operation runs is recorded and changes nothing. -/
theorem test_start_while_busy :
    step { polling [] with hostIn := [.start] } = .next { polling [] with refusedActs := [.start] } := rfl

/-- R222, T-DR-5: a write-rejected block. -/
theorem test_write_rejected :
    step { sending with opState := .busy (.writeVerdict .single 0x0D) } = .next (ioFailed 14 sending) := rfl

/-! ## Witnesses -/

/-- A next state that a test shows by evaluation. -/
theorem next_of {P : State → Bool} {o : Host.Outcome State Fault Refusal}
    (h : (match o with
      | .next t => P t
      | _ => false) = true) : ∃ t, o = .next t ∧ P t = true := by
  cases o with
  | next t => exact ⟨t, rfl, h⟩
  | fault _ => cases h
  | refused _ => cases h

theorem tb_page : Mem.readRange sending.tb 0 512 = some page := by
  have h : page.length = 512 := List.length_replicate
  have := Mem.readRange_of_read (Mem.write [] 0 page) page 0 fun i hi => by
    rw [Mem.read_write, if_pos (by omega)]
    simp
  rw [h] at this
  exact this

theorem empty_tb (c : Config) : Mem.wf [] ∧ ∀ p ∈ ([] : List Host.Cell), p.1 < tbSize c := ⟨.nil, by simp⟩

theorem no_operands (c : Config) :
    (∀ a ∈ (none : Option Nat), a < 2 ^ c.addrW) ∧ ∀ l ∈ (none : Option Nat), l < 2 ^ c.addrW := ⟨by simp, by simp⟩

theorem session_operands : (∀ a ∈ session.reqAddr, a < 2 ^ 32) ∧ ∀ l ∈ session.reqLen, l < 2 ^ 32 := by
  refine ⟨fun a h => ?_, fun l h => ?_⟩ <;> cases h <;> decide

theorem starting_inv (cards : List Byte) : Inv (starting cards) where
  cfg := (by decide : Config.standard.valid = true)
  session := fun h => by cases h
  tb := empty_tb _
  operands := no_operands _
  bracket := rfl
  ephemeral := fun h => by cases h
  result := (by decide : (none : Option (BitVec 4)) ≠ some 7 ∧ (none : Option (BitVec 4)) ≠ some 8)
  pos := fun p hp => by cases hp; exact ⟨⟨rfl, rfl, rfl, rfl⟩, ⟨rfl, rfl, rfl⟩, rfl⟩

theorem finishing_inv : Inv finishing where
  cfg := (by decide : Config.standard.valid = true)
  session := fun h => by cases h
  tb := empty_tb _
  operands := no_operands _
  bracket := rfl
  ephemeral := fun h => by cases h
  result := (by decide : (none : Option (BitVec 4)) ≠ some 7 ∧ (none : Option (BitVec 4)) ≠ some 8)
  pos := fun p hp => by cases hp; exact ⟨⟨rfl, rfl, rfl, rfl⟩, ⟨rfl, rfl, rfl⟩⟩

theorem session_holds : Classified true true true session := ⟨rfl, rfl, rfl⟩

theorem session_inv : Inv session where
  cfg := (by decide : Config.standard.valid = true)
  session := fun _ => ⟨rfl, rfl, rfl, session_holds⟩
  tb := empty_tb _
  operands := session_operands
  bracket := rfl
  ephemeral := fun _ => ⟨rfl, rfl⟩
  result := (by decide : (some 0 : Option (BitVec 4)) ≠ some 7 ∧ (some 0 : Option (BitVec 4)) ≠ some 8)
  pos := fun p hp => by cases hp

theorem asking_inv (cards : List Byte) : Inv (asking cards) where
  cfg := (by decide : Config.standard.valid = true)
  session := fun _ => ⟨rfl, rfl, rfl, session_holds⟩
  tb := empty_tb _
  operands := session_operands
  bracket := rfl
  ephemeral := fun h => by cases h
  result := (by decide : (some 0 : Option (BitVec 4)) ≠ some 7 ∧ (some 0 : Option (BitVec 4)) ≠ some 8)
  pos := fun p hp => by cases hp; rfl

theorem polling_inv (cards : List Byte) : Inv (polling cards) where
  cfg := (by decide : Config.standard.valid = true)
  session := fun _ => ⟨rfl, rfl, rfl, session_holds⟩
  tb := empty_tb _
  operands := session_operands
  bracket := rfl
  ephemeral := fun h => by cases h
  result := (by decide : (some 0 : Option (BitVec 4)) ≠ some 7 ∧ (some 0 : Option (BitVec 4)) ≠ some 8)
  pos := fun p hp => by cases hp; exact ⟨⟨rfl, Nat.lt_succ_self 0, Nat.le_refl 512, fun _ => rfl⟩, Nat.le_refl 1, (by decide : 1 ≤ 8)⟩

theorem sending_inv : Inv sending where
  cfg := (by decide : Config.standard.valid = true)
  session := fun _ => ⟨rfl, rfl, rfl, session_holds⟩
  tb := ⟨Mem.write_wf .nil _ _, Mem.write_lt (by simp) _ _ (by rw [page, List.length_replicate]; decide)⟩
  operands := session_operands
  bracket := rfl
  ephemeral := fun h => by cases h
  result := (by decide : (some 0 : Option (BitVec 4)) ≠ some 7 ∧ (some 0 : Option (BitVec 4)) ≠ some 8)
  pos := fun p hp => by cases hp; exact ⟨rfl, Nat.lt_succ_self 0, Nat.le_refl 512, fun _ => rfl⟩

theorem witness_DecodeEncode :
    Config.standard.valid = true ∧ Instr.wellFormed Config.standard (.cmdReadSingle 0xFFFFFFFF (crc7 (packetHead 17 0xFFFFFFFF))) = true
    ∧ Instr.wellFormed Config.standard .tokStartSingle = true
    ∧ Instr.wellFormed Config.standard (.errorToken 0x1F) = true := by decide +kernel

theorem witness_EncodeDecode : decode Config.standard .txToken [0xFD] = .ok .tokStopMultiWr := by decide

theorem witness_WellFormedPacketIsFrame :
    packetWellFormed [0x7A, 0x00, 0x00, 0x00, 0x00, 0xFD] = true
    ∧ cmdOfIdx Config.standard ((0x7A : Byte).extractLsb' 0 6) = some .readOcr := by decide +kernel

theorem witness_CrcCornerCases : ([0x40, 0x11] : List Byte).length = ([0x00, 0xFF] : List Byte).length := rfl

theorem witness_TransferBufferReadsBack :
    Mem.wf [(0, (0x01 : Byte)), (2 ^ 32 - 1, 0x02)] ∧ Mem.wf [(0, (0x01 : Byte)), (2 ^ 32 - 1, 0x02)] := by decide

theorem witness_WireAddress : 0xFFFFFE00 % 512 = 0 ∧ 0xFFFFFE00 < 2 ^ 32 := by decide

theorem witness_InitStarts : State.reset.opState = .idle ∧ session.opState = .idle := ⟨rfl, rfl⟩

/-- The highest address that fits, and with a wider `ADDR_W` the lowest that does not (R54). -/
theorem witness_BlockOpsStart :
    SessionAt 512 0x400 .high session ∧ 0x400 % (512 : Word).toNat = 0 ∧ (2 : Word).toNat = 0x400 / (512 : Word).toNat
    ∧ SessionAt 512 0xFFFFFE00 .standard { session with capClass := some .standard, reqAddr := some 0xFFFFFE00 }
    ∧ (0xFFFFFE00 : Word).toNat = 0xFFFFFE00 ∧ session.reqLen = some 0x400
    ∧ SessionAt 512 (2 ^ 32) .standard { session with
        cfg := { Config.standard with addrW := 42 }, capClass := some .standard, reqAddr := some (2 ^ 32) }
    ∧ SessionAt 512 (2 ^ 41) .high { session with cfg := { Config.standard with addrW := 42 }, reqAddr := some (2 ^ 41) }
    ∧ 2 ^ 41 % (512 : Word).toNat = 0 ∧ 2 ^ 32 ≤ 2 ^ 41 / (512 : Word).toNat
    ∧ { session with reqAddr := none }.blockLen = some 512 ∧ { session with reqLen := none }.reqAddr = some 0x400 :=
  ⟨⟨rfl, rfl, rfl, rfl, rfl⟩, by decide, by decide, ⟨rfl, rfl, rfl, rfl, rfl⟩, by decide, rfl, ⟨rfl, rfl, rfl, rfl, rfl⟩,
    ⟨rfl, rfl, rfl, rfl, rfl⟩, by decide, by decide, rfl, rfl⟩

theorem witness_PrechecksFail :
    SessionAt 512 511 .high { session with reqAddr := some 511 } ∧ 511 % (512 : Word).toNat ≠ 0
    ∧ SessionAt 512 0 .high { session with reqAddr := some 0, reqLen := some 1 }
    ∧ 0 % (512 : Word).toNat = 0 ∧ 1 % (512 : Word).toNat ≠ 0 :=
  ⟨⟨rfl, rfl, rfl, rfl, rfl⟩, by decide, ⟨rfl, rfl, rfl, rfl, rfl⟩, by decide, by decide⟩

theorem witness_StartsRefused : State.reset.opState = .idle ∧ State.reset.sessionValid = false := ⟨rfl, rfl⟩

theorem witness_AccessorResults :
    session.opState = .idle ∧ session.family = some .sd ∧ session.blockLen = some 512 ∧ session.capClass = some .high
    ∧ State.reset.opState = .idle ∧ State.reset.family = none ∧ State.reset.blockLen = none
    ∧ State.reset.capClass = none := ⟨rfl, rfl, rfl, rfl, rfl, rfl, rfl, rfl⟩

theorem witness_ReadStatusResult : session.opState = .idle ∧ (asking []).opState = .busy .sendStatus := ⟨rfl, rfl⟩

theorem witness_BusyActionsRefused :
    (polling []).opState = .busy (.readToken .single 1)
    ∧ ∀ a ∈ [HostAct.start, .writeOp 1, .writeAddr 0, .writeLen 0, .writeTB 0 [0]],
      { polling [] with hostIn := [a] }.hostIn = [a] := ⟨rfl, fun _ _ => rfl⟩

theorem witness_HostActions :
    session.opState = .idle ∧ State.reset.reqOp = none ∧ State.reset.resultKind = none
    ∧ State.reset.resultValue = none ∧ Mem.read State.reset.tb 0 = none ∧ session.resultKind = some 0
    ∧ { session with resultValue := some 7 }.resultValue = some 7 ∧ Mem.read [(0, (0x55 : Byte))] 0 = some 0x55
    ∧ { session with hostIn := [.writeTB 0xFFFFFFFF [0]] }.hostIn = [.writeTB 0xFFFFFFFF [0]]
    ∧ 0xFFFFFFFF + 1 ≤ 2 ^ Config.standard.addrW ∧ ¬ 0xFFFFFFFF + 2 ≤ 2 ^ Config.standard.addrW
    ∧ ¬ 0xFFFFFFFF + 2 ≤ Config.standard.blockLenOp.toNat
    ∧ (polling []).opState = .busy (.readToken .single 1) := by decide

theorem witness_OutOfPlaceRefused :
    Instr.fmt (.cmdReset 0 0x4A) ≠ .hostOp ∧ session.opState = .idle
    ∧ (∀ p, (polling []).opState = .busy p → ¬ Place (.cmdReset 0 0x4A) p)
    ∧ (∀ p, (polling []).opState = .busy p → ¬ Place .tokStartMultiRd p) :=
  ⟨by decide, rfl, fun p hp => by cases hp; exact id, fun p hp => by cases hp; exact Bool.noConfusion⟩

theorem witness_ResetCommandResult : (starting []).opState = .busy .reset := rfl
theorem witness_VoltageCheckResult : (busyAt .ifCond []).opState = .busy .ifCond := rfl
theorem witness_FamilyResult : (busyAt .ocrFamily []).opState = .busy .ocrFamily := rfl

theorem witness_SdLoop :
    Unhurried (busyAt .step4 []) ∧ { busyAt .step4 [] with family := some .sd, generation := some .legacy }.opState = .busy .step4
    ∧ (busyAt (.appPrefix 0x40000000 4) []).opState = .busy (.appPrefix 0x40000000 4)
    ∧ (busyAt (.appOpCond 0 1) []).opState = .busy (.appOpCond 0 1) := ⟨.inl rfl, rfl, rfl, rfl⟩

theorem witness_ApplicationCommandResult : (busyAt (.appPrefix 0 4) []).opState = .busy (.appPrefix 0 4) := rfl

/-- The prefix answered 0x01 lets the target be sent; answered 0x04 it does not. -/
theorem witness_ApplicationCommandIsItsTwoCommands :
    (∃ u, exec (.cmdAppPrefix 0 0x32) (busyAt (.appPrefix 0 1) [0x01, 0x00]) = .next u
      ∧ u.opState = .busy (.appOpCond 0 1))
    ∧ ∃ u, exec (.cmdAppPrefix 0 0x32) (busyAt (.appPrefix 0 1) [0x04]) = .next u ∧ u.opState = .idle :=
  ⟨⟨_, rfl, rfl⟩, ⟨_, rfl, rfl⟩⟩

theorem witness_FallbackLoop :
    Unhurried (busyAt .step4 []) ∧ { busyAt .step4 [] with family := some .mmc }.family = some .mmc
    ∧ (busyAt (.opCond 4) []).opState = .busy (.opCond 4) := ⟨.inl rfl, rfl, rfl⟩

theorem witness_CapacityStep :
    Unhurried (busyAt .step5 []) ∧ { busyAt .step5 [] with generation := some .legacy }.generation = some .legacy
    ∧ { busyAt .step5 [] with generation := some .v2 }.generation = some .v2
    ∧ (busyAt (.ocrCapacity 4) []).opState = .busy (.ocrCapacity 4) := ⟨.inl rfl, rfl, rfl, rfl⟩

theorem witness_ReadyStep :
    Unhurried finishing ∧ finishing.opState = .busy .step6 ∧ finishing.capClass = some .high
    ∧ { finishing with capClass := some .standard }.capClass = some .standard
    ∧ (busyAt .setBlockLen []).opState = .busy .setBlockLen := ⟨.inl rfl, rfl, rfl, rfl, rfl⟩

theorem witness_NegStateTransitions : Inv finishing ∧ step finishing = .next (ready finishing) :=
  ⟨finishing_inv, rfl⟩

theorem witness_InitFailureLeaves :
    Inv (starting [0x00]) ∧ (starting [0x00]).opState = .busy .reset ∧ Pos.inInit .reset = true
    ∧ ∃ t, step (starting [0x00]) = .next t ∧ decide (t.opState = .idle ∧ t.resultKind = some 2) = true :=
  ⟨starting_inv _, rfl, rfl, next_of (by decide +kernel)⟩

theorem witness_InitAttemptBudgets :
    Config.standard.valid = true
    ∧ { busyAt (.opCond 1) [1, 1, 1, 0xC9] with pkt := frame 1 0 }.cardIn = [1, 1, 1, 0xC9] ++ []
    ∧ ([1, 1, 1, 0xC9] : List Byte).length = Config.standard.initPollMax
    ∧ (∀ r ∈ ([1, 1, 1, 0xC9] : List Byte), r ≠ Config.standard.idleFill ∧ r.getLsbD 0 = true ∧ r.getLsbD 2 = false)
    ∧ ([(0, 1), (1, 1), (1, 1), (1, 1)] : List (Byte × Byte)).length = Config.standard.initPollMax
    ∧ ∀ r ∈ ([(0, 1), (1, 1), (1, 1), (1, 1)] : List (Byte × Byte)),
      r.1 ≠ Config.standard.idleFill ∧ r.2 ≠ Config.standard.idleFill ∧ r.1 &&& 0xFE = 0 ∧ r.2.getLsbD 0 = true ∧ r.2.getLsbD 2 = false :=
  ⟨by decide, rfl, rfl, by decide, rfl, fun r hr => by fin_cases hr <;> decide⟩

/-- Program P1's card, in answers that come at once. -/
theorem witness_InitNegotiatesSdHighCapacity :
    State.reset.opState = .idle ∧ Config.standard.valid = true
    ∧ (∀ b ∈ ([0x01, 0x01, 0x01, 0x01, 0x00, 0x00] : List Byte), b ≠ Config.standard.idleFill)
    ∧ (0x01 : Byte).getLsbD 0 = true ∧ (0x01 : Byte).getLsbD 2 = false
    ∧ (ofBe [0x00, 0x00, 0x01, 0xAA]).extractLsb' 0 8 = Config.standard.checkPattern
    ∧ (ofBe [0x00, 0x00, 0x01, 0xAA]).extractLsb' 8 4 = Config.standard.vhsCode
    ∧ (ofBe [0x00, 0xFF, 0x80, 0x00]).getLsbD Config.standard.ocrVwinBit.val = true
    ∧ (0x01 : Byte) &&& 0xFE = 0 ∧ (0x00 : Byte).getLsbD 2 = false ∧ (0x00 : Byte).getLsbD 0 = false
    ∧ (ofBe [0xC0, 0xFF, 0x80, 0x00]).getLsbD 31 = true
    ∧ (ofBe [0xC0, 0xFF, 0x80, 0x00]).getLsbD 30 = true := by decide

theorem witness_InitNegotiatesLegacyMmc :
    State.reset.opState = .idle ∧ Config.standard.valid = true
    ∧ (∀ b ∈ ([0x05, 0x05, 0x05, 0x00, 0x00] : List Byte), b ≠ Config.standard.idleFill)
    ∧ (0x05 : Byte).getLsbD 2 = true ∧ (0x05 : Byte).getLsbD 0 = true ∧ (0x00 : Byte).getLsbD 2 = false
    ∧ (0x00 : Byte).getLsbD 0 = false ∧ ([0x00, 0x00, 0x00, 0x00] : List Byte).length = 4 := by decide

theorem witness_BlockCommandResults :
    (busyAt (.readCmd ⟨false, 0, 1⟩) []).opState = .busy (.readCmd ⟨false, 0, 1⟩)
    ∧ (busyAt (.writeCmd ⟨true, 0, 0⟩) []).opState = .busy (.writeCmd ⟨true, 0, 0⟩) := ⟨rfl, rfl⟩

theorem witness_TokenPoll :
    (∀ cards, Unhurried (polling cards)) ∧ answer (polling [0xFE]) 0 = Config.standard.tokStartSingle
    ∧ answer (polling [0x1F]) 0 &&& Config.standard.errTokenMask = 0
    ∧ answer (polling [0x20]) 0 &&& Config.standard.errTokenMask ≠ 0 := ⟨fun _ => .inl rfl, rfl, rfl, by decide⟩

theorem witness_ErrorTokenResult : (polling []).opState = .busy (.readToken .single 1) := rfl

theorem witness_StartTokenReceivesBlock :
    (polling []).opState = .busy (.readToken ⟨false, 0, 1⟩ 1) ∧ (polling []).blockLen = some 512
    ∧ { polling [0x01, 0x10, 0x21] with blockLen := some 1 }.blockLen = some 1
    ∧ answer (polling [0x01, 0x10, 0x21]) 1 ++ answer (polling [0x01, 0x10, 0x21]) 2
      = crc16 ((List.range 1).map (answer (polling [0x01, 0x10, 0x21])))
    ∧ answer (polling [0x01, 0x21, 0x10]) 1 ++ answer (polling [0x01, 0x21, 0x10]) 2
      ≠ crc16 ((List.range 1).map (answer (polling [0x01, 0x21, 0x10]))) := by decide +kernel

theorem witness_SentFrame :
    sending.opState = .busy (.writeFrame ⟨false, 0, 1⟩) ∧ sending.blockLen = some 512 ∧ page.length = (512 : Word).toNat
    ∧ (∀ i (h : i < page.length), Mem.read sending.tb (0 * (512 : Word).toNat + i) = some page[i])
    ∧ 511 < (512 : Word).toNat ∧ Mem.read { sending with tb := [] }.tb (0 * (512 : Word).toNat + 511) = none := by
  refine ⟨rfl, rfl, List.length_replicate, fun i h => ?_, by decide, rfl⟩
  have hl : page.length = 512 := List.length_replicate
  rw [Nat.zero_mul, Mem.read_of_readRange _ _ _ _ tb_page i (hl ▸ h)]
  exact List.getElem?_eq_getElem h

theorem witness_DataResponsePoll :
    Unhurried (busyAt (.dataResp .single 8) [0xE5]) ∧ answer (busyAt (.dataResp .single 8) [0xE5]) 0 ≠ Config.standard.idleFill
    ∧ answer (busyAt (.dataResp .single 8) [0xFF]) 0 = Config.standard.idleFill := ⟨.inl rfl, by decide, rfl⟩

theorem witness_BusyWaitStep :
    Unhurried (busyAt (.writeBusy .single 0x05) [0xFF])
    ∧ (busyAt (.writeBusy .single 0x05) [0xFF]).opState = .busy (.writeBusy .single 0x05)
    ∧ (busyAt (.readStopBusy none) []).opState = .busy (.readStopBusy none)
    ∧ (busyAt (.writeStopBusy (some .blockCrcInvalid)) []).opState = .busy (.writeStopBusy (some .blockCrcInvalid)) :=
  ⟨.inl rfl, rfl, rfl, rfl⟩

theorem witness_DataResponseResults :
    Unhurried (busyAt (.writeVerdict .single 0xE5) [])
    ∧ (busyAt (.writeVerdict .single 0xE5) []).opState = .busy (.writeVerdict .single 0xE5) := ⟨.inl rfl, rfl⟩

theorem witness_StopSequences :
    (busyAt (.readStop none) []).opState = .busy (.readStop none)
    ∧ (busyAt (.writeStop none) []).opState = .busy (.writeStop none) := ⟨rfl, rfl⟩

/-- T-RB-2: the response and the token at the last attempt. -/
theorem witness_ReadBlockRuns :
    SessionAt 512 0x400 .high session ∧ session.cfg.valid = true ∧ session.hostIn = []
    ∧ (512 : Word) ≠ 0 ∧ 0x400 % (512 : Word).toNat = 0 ∧ wireArg .high 512 0x400 = some 2
    ∧ page.length = (512 : Word).toNat ∧ 7 < session.cfg.respPollMax
    ∧ 7 < session.cfg.tokenPollMax :=
  ⟨⟨rfl, rfl, rfl, rfl, rfl⟩, by decide, rfl, by decide, by decide, by decide, List.length_replicate,
    by decide, by decide⟩

theorem witness_WriteBlockRuns :
    SessionAt 512 0x400 .high { sending with opState := .idle } ∧ sending.cfg.valid = true ∧ sending.hostIn = []
    ∧ Mem.readRange { sending with opState := .idle }.tb 0 (512 : Word).toNat = some page ∧ 7 < sending.cfg.drespPollMax
    ∧ (0xE5 : Byte) ≠ sending.cfg.idleFill ∧ ∀ b ∈ ([0x00, 0x00] : List Byte), b ≠ sending.cfg.idleFill :=
  ⟨⟨rfl, rfl, rfl, rfl, rfl⟩, by decide, rfl, tb_page, by decide, by decide, by decide⟩

/-- T-MB: two blocks, and none at all. -/
theorem witness_ReadBlocksRuns :
    SessionAt 512 0x400 .high session ∧ session.reqLen = some 0x400 ∧ 0x400 = [page, page].length * (512 : Word).toNat
    ∧ (∀ p ∈ [page, page], p.length = (512 : Word).toNat) ∧ (0x7F : Byte) ≠ session.cfg.idleFill
    ∧ 0 = ([] : List (List Byte)).length * (512 : Word).toNat ∧ ∀ b ∈ ([0x00] : List Byte), b ≠ session.cfg.idleFill :=
  ⟨⟨rfl, rfl, rfl, rfl, rfl⟩, rfl, by decide, fun p hp => by simp at hp; rw [hp]; exact List.length_replicate,
    by decide, by decide, by decide⟩

theorem witness_WriteBlocksRuns :
    SessionAt 512 0x400 .high { sending with opState := .idle, reqLen := some 0x200 }
    ∧ 0x200 = [page].length * (512 : Word).toNat ∧ (∀ p ∈ [page], p.length = (512 : Word).toNat)
    ∧ Mem.readRange sending.tb 0 0x200 = some [page].flatten
    ∧ ([0xE5] : List Byte).length = [page].length ∧ ∀ d ∈ ([0xE5] : List Byte), d ≠ sending.cfg.idleFill ∧ d &&& 0x1F = 0x05 := by
  refine ⟨⟨rfl, rfl, rfl, rfl, rfl⟩, by decide, fun p hp => ?_, ?_, rfl, by decide⟩
  · simp at hp; rw [hp]; exact List.length_replicate
  · have h := tb_page
    simpa using h

theorem witness_StepRunsDecoded :
    { session with hostIn := [.start] }.hostIn = .start :: [] ∧ session.reqOp = some 2
    ∧ decode Config.standard .hostOp [(2 : BitVec 4).setWidth 8] = .ok .readBlock
    ∧ Unhurried (starting []) ∧ Issues .reset ∧ decode Config.standard .packet (starting []).pkt = .ok (.cmdReset 0 0x4A)
    ∧ decode Config.standard (.rxToken false) [answer (polling [0xFE]) 0] = .ok .tokStartSingle
    ∧ decode Config.standard .txToken [sending.cfg.tokStartSingle] = .ok .tokStartSingle
    ∧ decode Config.standard .txToken [sending.cfg.tokStopMultiWr] = .ok .tokStopMultiWr
    ∧ decode Config.standard .dataResp [0xE5] = .ok (.dataRespAccepted 0b111) :=
  ⟨rfl, rfl, by decide +kernel, .inl rfl, trivial, by decide +kernel, by decide, by decide, by decide, by decide⟩

theorem witness_InvKeptByEveryStep :
    Inv (starting [0x01]) ∧ ∃ t, step (starting [0x01]) = .next t ∧ decide (t.opState = .busy .ifCond) = true :=
  ⟨starting_inv _, next_of (by decide +kernel)⟩

/-- A write with its bytes, and one whose TB holds none. -/
theorem witness_RunningOperationNeverStops :
    Inv sending ∧ Unhurried sending ∧ sending.opState = .busy (.writeFrame .single)
    ∧ Mem.read { sending with tb := [] }.tb (Xfer.single.block * (512 : Word).toNat + 511) = none :=
  ⟨sending_inv, .inl rfl, rfl, rfl⟩

theorem witness_OperationsWithoutBusyWaitEnd :
    (Inv (starting []) ∧ BusyWaitFree .reset) ∧ (Inv (asking []) ∧ BusyWaitFree .sendStatus)
    ∧ Inv (polling []) ∧ BusyWaitFree (.readToken .single 1) :=
  ⟨⟨starting_inv _, rfl⟩, ⟨asking_inv _, trivial⟩, polling_inv _, rfl⟩

theorem witness_BusyWaitHangs :
    Unhurried (busyAt (.writeBusy .single 0x05) [0, 0]) ∧ BusyWaits (.writeBusy .single 0x05)
    ∧ (∀ i, i < 2 → answer (busyAt (.writeBusy .single 0x05) [0, 0]) i ≠ Config.standard.idleFill)
    ∧ Unhurried (polling [0x20]) ∧ BusyWaitFree (.readToken .single 1) ∧ ¬ BusyWaits (.readToken .single 1)
    ∧ ∃ t, step (polling [0x20]) = .next t :=
  ⟨.inl rfl, trivial, by decide, .inl rfl, rfl, id, _, rfl⟩

theorem witness_SessionChanges :
    (Inv finishing ∧ finishing.sessionValid = false ∧ ∃ t, step finishing = .next t ∧ t.sessionValid = true)
    ∧ (Inv (polling [0x08]) ∧ ∃ t, step (polling [0x08]) = .next t ∧ t.sessionValid = false)
    ∧ State.reset.opState = .idle ∧ State.reset.sessionValid = false :=
  ⟨⟨finishing_inv, rfl, _, rfl, rfl⟩, ⟨polling_inv _, _, rfl, rfl⟩, rfl, rfl⟩

theorem witness_BlockIOLeaves :
    Inv (polling [0x08]) ∧ (polling [0x08]).opState = .busy (.readToken .single 1)
    ∧ Pos.inRead (.readToken .single 1) = true ∧ ∃ t, step (polling [0x08]) = .next t :=
  ⟨polling_inv _, rfl, rfl, _, rfl⟩

theorem witness_NegotiationAndStatusLeave :
    ((starting [0x01]).opState = .busy .reset ∧ Pos.inInit .reset = true
      ∧ ∃ t, step (starting [0x01]) = .next t ∧ decide (t.negState = .idle) = true)
    ∧ (asking [0x00, 0x80]).opState = .busy .sendStatus
    ∧ ∃ t, step (asking [0x00, 0x80]) = .next t ∧ decide (t.resultValue = some 0x0080) = true :=
  ⟨⟨rfl, rfl, next_of (by decide +kernel)⟩, rfl, next_of (by decide +kernel)⟩

theorem witness_OperandsNotNamedAreIgnored :
    Unhurried (starting []) ∧ (starting []).opState = .busy .reset ∧ Pos.inInit .reset = true := ⟨.inl rfl, rfl, rfl⟩

theorem witness_ResultCodesOfOperations :
    (Inv finishing ∧ ∃ t, step finishing = .next t ∧ t.opState = .idle)
    ∧ Inv (starting [0x01]) ∧ ∃ t, step (starting [0x01]) = .next t ∧ decide (t.opState ≠ .idle) = true :=
  ⟨⟨finishing_inv, _, rfl, rfl⟩, starting_inv _, next_of (by decide +kernel)⟩

end Sys2Proof.Tests
end

section
/-! PROOFS. The starts of the four block operations (O15): what the prechecks of R210, R211 and R54 let
through, said once over the shared `blockStart`, then cited for each operation. -/

namespace Sys2Proof.Claims
open Sys2Proof.Machine

/-! ## A start as its prechecks -/

/-- In an IDLE state a host operation runs (R310). -/
theorem whenIdle_of_idle {s : State} {o : Host.Outcome State Fault Refusal} (h : s.opState = .idle) :
    whenIdle s o = o := by
  simp only [whenIdle, h]

/-- `READ_BLOCK` from an IDLE state (R215). -/
theorem exec_readBlock {s : State} (h : s.opState = .idle) :
    exec .readBlock s = blockStart false s fun wa x => issuesNext (.readCmd x) .readSingle wa (select s) :=
  whenIdle_of_idle h

/-- `WRITE_BLOCK` from an IDLE state (R220). -/
theorem exec_writeBlock {s : State} (h : s.opState = .idle) :
    exec .writeBlock s = blockStart false s fun wa x => issuesNext (.writeCmd x) .writeSingle wa (select s) :=
  whenIdle_of_idle h

/-- `READ_BLOCKS` from an IDLE state (R228). -/
theorem exec_readBlocks {s : State} (h : s.opState = .idle) :
    exec .readBlocks s = blockStart true s fun wa x => issuesNext (.readCmd x) .readMulti wa (select s) :=
  whenIdle_of_idle h

/-- `WRITE_BLOCKS` from an IDLE state (R234). -/
theorem exec_writeBlocks {s : State} (h : s.opState = .idle) :
    exec .writeBlocks s = blockStart true s fun wa x => issuesNext (.writeCmd x) .writeMulti wa (select s) :=
  whenIdle_of_idle h

/-- The single-block operations share their prechecks. -/
theorem exec_single_eq_blockStart {s : State} (h : s.opState = .idle) {i : Instr}
    (hi : i ∈ [Instr.readBlock, .writeBlock]) : ∃ k, exec i s = blockStart false s k := by
  simp only [List.mem_cons, List.not_mem_nil, or_false] at hi
  obtain rfl | rfl := hi
  · exact ⟨_, exec_readBlock h⟩
  · exact ⟨_, exec_writeBlock h⟩

/-- The multi-block operations share their prechecks. -/
theorem exec_multi_eq_blockStart {s : State} (h : s.opState = .idle) {i : Instr}
    (hi : i ∈ [Instr.readBlocks, .writeBlocks]) : ∃ k, exec i s = blockStart true s k := by
  simp only [List.mem_cons, List.not_mem_nil, or_false] at hi
  obtain rfl | rfl := hi
  · exact ⟨_, exec_readBlocks h⟩
  · exact ⟨_, exec_writeBlocks h⟩

/-- Each block operation is its prechecks (R12). -/
theorem exec_blockOps_eq_blockStart {s : State} (h : s.opState = .idle) {i : Instr} (hi : i ∈ blockOps) :
    ∃ multi k, exec i s = blockStart multi s k := by
  obtain hi | hi := List.mem_append.1 (show i ∈ [Instr.readBlock, .writeBlock] ++ [.readBlocks, .writeBlocks] from hi)
  · exact ⟨false, exec_single_eq_blockStart h hi⟩
  · exact ⟨true, exec_multi_eq_blockStart h hi⟩

/-! ## What the prechecks let through -/

/-- The alignment check of R61 as the remainder it tests. -/
theorem aligned_iff {bl : Word} {v : Nat} : aligned bl v = true ↔ v % bl.toNat = 0 := by
  simp [aligned]

section
variable {s : State} {bl : Word} {a l : Nat} {cap : CapClass} {k : Word → Xfer → State}

theorem SessionAt.capClass_eq (h : SessionAt bl a cap s) : s.capClass = some cap := by
  obtain ⟨-, -, -, -, hc⟩ := h
  exact hc

/-- A wire address that fits goes on with the argument (R53, R54). -/
theorem toCard_of_some {wa : Word} {k : Word → State} (hc : s.capClass = some cap)
    (hw : wireArg cap bl a = some wa) : toCard bl a s k = .next (k wa) := by
  simp only [toCard, withReg, hc, hw]

/-- A wire address that does not fit is refused (R54). -/
theorem toCard_of_none {k : Word → State} (hc : s.capClass = some cap)
    (hw : wireArg cap bl a = none) : toCard bl a s k = .refused .addressTooWide := by
  simp only [toCard, withReg, hc, hw]

/-- In a session a start without an address is a fault, whichever operation it is (R22, R33). -/
theorem blockStart_of_reqAddr_none {multi : Bool} (hs : s.sessionValid = true) (hb : s.blockLen = some bl)
    (ha : s.reqAddr = none) : blockStart multi s k = .fault (.noValue .reqAddr) := by
  simp [blockStart, withReg, hs, hb, ha]

/-- With an aligned address a multi-block start without a length is a fault (R22, R33). -/
theorem blockStart_multi_of_reqLen_none (hs : s.sessionValid = true) (hb : s.blockLen = some bl)
    (ha : s.reqAddr = some a) (hal : a % bl.toNat = 0) (hl : s.reqLen = none) :
    blockStart true s k = .fault (.noValue .reqLen) := by
  simp [blockStart, withReg, hs, hb, ha, aligned_iff.2 hal, hl]

/-- An aligned single-block start is left with the wire address alone (R210, R211). -/
theorem blockStart_single_of_aligned (hs : SessionAt bl a cap s) (hal : a % bl.toNat = 0) :
    blockStart false s k = toCard bl a s (k · ⟨false, 0, 1⟩) := by
  obtain ⟨-, hv, hb, ha, -⟩ := hs
  simp [blockStart, withReg, hv, hb, ha, aligned_iff.2 hal, Xfer.single]

/-- An aligned multi-block start counts its blocks and is left with the wire address alone (R211, R228). -/
theorem blockStart_multi_of_aligned (hs : SessionAt bl a cap s) (hal : a % bl.toNat = 0)
    (hl : s.reqLen = some l) (hll : l % bl.toNat = 0) :
    blockStart true s k = toCard bl a s (k · ⟨true, 0, l / bl.toNat⟩) := by
  obtain ⟨-, hv, hb, ha, -⟩ := hs
  simp [blockStart, withReg, hv, hb, ha, aligned_iff.2 hal, hl, aligned_iff.2 hll, Xfer.ofCount, blockCount]

/-- An aligned single-block start whose wire address fits goes on to its command. -/
theorem blockStart_single_starts {wa : Word} (hs : SessionAt bl a cap s) (hal : a % bl.toNat = 0)
    (hw : wireArg cap bl a = some wa) : blockStart false s k = .next (k wa ⟨false, 0, 1⟩) := by
  rw [blockStart_single_of_aligned hs hal, toCard_of_some hs.capClass_eq hw]

/-- An aligned multi-block start whose wire address fits goes on to its command. -/
theorem blockStart_multi_starts {wa : Word} (hs : SessionAt bl a cap s) (hal : a % bl.toNat = 0)
    (hl : s.reqLen = some l) (hll : l % bl.toNat = 0) (hw : wireArg cap bl a = some wa) :
    blockStart true s k = .next (k wa ⟨true, 0, l / bl.toNat⟩) := by
  rw [blockStart_multi_of_aligned hs hal hl hll, toCard_of_some hs.capClass_eq hw]

end

/-- Settles O15: each operation is the shared prechecks, and each clause is one outcome of those. -/
theorem blockOpsStart : Obligations.BlockOpsStart := by
  intro s bl hidle hv hb
  refine ⟨fun a l cap wa hs hal hwa => ?starts, fun a l cap hs hal hwide => ?tooWide, fun ha i hi => ?noAddr,
    fun a ha hal hl i hi => ?noLen⟩
  case starts =>
    have hw : wireArg cap bl a = some wa := wireArg_eq_some.2 hwa
    exact ⟨(exec_readBlock hidle).trans (blockStart_single_starts hs hal hw),
      (exec_writeBlock hidle).trans (blockStart_single_starts hs hal hw),
      fun hl hll => ⟨(exec_readBlocks hidle).trans (blockStart_multi_starts hs hal hl hll hw),
        (exec_writeBlocks hidle).trans (blockStart_multi_starts hs hal hl hll hw)⟩⟩
  case tooWide =>
    have hw : wireArg cap bl a = none := wireArg_eq_none.2 hwide
    constructor
    · intro i hi
      obtain ⟨k, hk⟩ := exec_single_eq_blockStart hidle hi
      rw [hk, blockStart_single_of_aligned hs hal, toCard_of_none hs.capClass_eq hw]
    · intro hl hll i hi
      obtain ⟨k, hk⟩ := exec_multi_eq_blockStart hidle hi
      rw [hk, blockStart_multi_of_aligned hs hal hl hll, toCard_of_none hs.capClass_eq hw]
  case noAddr =>
    obtain ⟨multi, k, hk⟩ := exec_blockOps_eq_blockStart hidle hi
    rw [hk, blockStart_of_reqAddr_none hv hb ha]
  case noLen =>
    obtain ⟨k, hk⟩ := exec_multi_eq_blockStart hidle hi
    rw [hk, blockStart_multi_of_reqLen_none hv hb ha hal hl]

end Sys2Proof.Claims
end

section
/-! PROOFS. One step, said once: the host's actions, the starts of the operations, and the turn of a running
operation. -/

namespace Sys2Proof.Machine
open Sys2Proof.Claims

/-! ## A step as its turn -/

/-- What a turn comes to: its instruction's meaning, or the thing that happens. -/
def turnOutcome : Turn → Host.Outcome State Fault Refusal
  | .run i s => exec i s
  | .other o => o

theorem step_eq (s : State) : step s = turnOutcome (fetch s) := by
  unfold step turnOutcome
  cases fetch s <;> rfl

theorem withReg_eq_next {α : Type} {r : RegName} {v : Option α} {k : α → Host.Outcome State Fault Refusal} {t : State} :
    withReg r v k = .next t ↔ ∃ a, v = some a ∧ k a = .next t := by
  cases v <;> simp [withReg]

theorem whenIdle_eq_next {s t : State} {o : Host.Outcome State Fault Refusal} :
    whenIdle s o = .next t ↔ s.opState = .idle ∧ o = .next t := by
  unfold whenIdle
  split <;> simp_all

/-- A host action that changes the host's own lists alone. -/
def HostOnly (s t : State) : Prop :=
  ∃ l out acts, t = { s with hostIn := l, hostOut := out, refusedActs := acts }

theorem HostOnly.refl (s : State) : HostOnly s s := ⟨_, _, _, rfl⟩

theorem HostOnly.hostIn (s : State) (l : List HostAct) : HostOnly s { s with hostIn := l } := ⟨_, _, _, rfl⟩

theorem HostOnly.trans {s t u : State} (h : HostOnly s t) (h' : HostOnly t u) : HostOnly s u := by
  obtain ⟨_, _, _, rfl⟩ := h
  obtain ⟨_, _, _, rfl⟩ := h'
  exact ⟨_, _, _, rfl⟩

theorem hostOnly_hostSees (v : HostVal) (s : State) : HostOnly s (hostSees v s) := ⟨_, _, _, rfl⟩

theorem hostOnly_recordRefused (a : HostAct) (s : State) : HostOnly s (recordRefused a s) := ⟨_, _, _, rfl⟩

theorem hostOnly_of_hostReadKind {s t : State} (h : hostReadKind s = .next t) : HostOnly s t := by
  obtain ⟨v, -, hv⟩ := withReg_eq_next.1 h
  cases hv
  exact hostOnly_hostSees _ s

theorem hostOnly_of_hostReadValue {s t : State} (h : hostReadValue s = .next t) : HostOnly s t := by
  obtain ⟨v, -, hv⟩ := withReg_eq_next.1 h
  cases hv
  exact hostOnly_hostSees _ s

/-- No host action changes a running operation (R310). -/
theorem hostOnly_of_hostBusy {a : HostAct} {s t : State} (h : hostBusy a s = .next t) : HostOnly s t := by
  cases a with
  | readResultKind => exact hostOnly_of_hostReadKind h
  | readResultValue => exact hostOnly_of_hostReadValue h
  | readOpState => cases h; exact hostOnly_hostSees _ s
  | wait | pause => cases h; exact .refl s
  | writeOp | writeAddr | writeLen | writeTB | start | readTB => cases h; exact hostOnly_recordRefused _ s

/-- What a step can do while an operation runs: a host action, or the operation's own next step. -/
theorem step_busy_cases {s t : State} {p : Pos} (hp : s.opState = .busy p) (h : step s = .next t) :
    HostOnly s t ∨ ∃ l, turnOutcome (fetchAt p { s with hostIn := l }) = .next t := by
  rw [step_eq] at h
  unfold fetch at h
  split at h
  case h_1 hidle _ | h_2 hidle _ => simp [hp] at hidle
  case h_3 hq hl =>
    obtain rfl := OpState.busy.inj (hp.symm.trans hq)
    exact .inr ⟨[], by rwa [← hl]⟩
  case h_4 rest hq hl =>
    obtain rfl := OpState.busy.inj (hp.symm.trans hq)
    exact .inr ⟨.wait :: rest, by rwa [← hl]⟩
  case h_5 rest hq hl =>
    obtain rfl := OpState.busy.inj (hp.symm.trans hq)
    exact .inr ⟨rest, h⟩
  case h_6 rest _ _ hq hl => exact .inl ((HostOnly.hostIn s rest).trans (hostOnly_of_hostBusy h))

/-- The host's writes while no operation runs (R31, R52). -/
inductive HostWrote (s : State) : State → Prop
  | op (l : List HostAct) (v : BitVec 4) : HostWrote s { s with hostIn := l, reqOp := some v }
  | addr (l : List HostAct) (v : Nat) : HostWrote s { s with hostIn := l, reqAddr := some (operandValue s.cfg v) }
  | len (l : List HostAct) (v : Nat) : HostWrote s { s with hostIn := l, reqLen := some (operandValue s.cfg v) }
  | tb (l : List HostAct) (o : Nat) (bs : List Byte) (h : o + bs.length ≤ tbSize s.cfg) :
      HostWrote s { s with hostIn := l, tb := Mem.write s.tb o bs }

/-- While no operation runs the host's next action happens. -/
theorem fetch_idle {s : State} {a : HostAct} {l : List HostAct} (hs : s.opState = .idle) (hin : s.hostIn = a :: l) :
    fetch s = hostIdle a { s with hostIn := l } := by
  unfold fetch
  split <;> simp_all

/-- What a step can do while no operation runs: the host reads or waits, writes, or starts an operation. -/
theorem step_idle_cases {s t : State} (hs : s.opState = .idle) (h : step s = .next t) :
    HostOnly s t ∨ HostWrote s t
    ∨ ∃ l op, s.hostIn = .start :: l ∧ s.reqOp = some op ∧ exec (decodeHostOp op) { s with hostIn := l } = .next t := by
  rw [step_eq] at h
  cases hin : s.hostIn with
  | nil => simp only [fetch, hs, hin] at h; cases h; exact .inl (.refl s)
  | cons a l =>
    rw [fetch_idle hs hin] at h
    have hl := HostOnly.hostIn s l
    cases a with
    | writeOp v => cases h; exact .inr (.inl (.op l v))
    | writeAddr v => cases h; exact .inr (.inl (.addr l v))
    | writeLen v => cases h; exact .inr (.inl (.len l v))
    | writeTB o bs =>
      simp only [hostIdle, turnOutcome, hostWriteTB] at h
      split at h
      · next hb => cases h; exact .inr (.inl (.tb l o bs hb))
      · cases h
    | start =>
      cases hop : s.reqOp with
      | none => simp [hostIdle, turnOutcome, hop] at h
      | some op =>
        simp only [hostIdle, hop, turnOutcome] at h
        exact .inr (.inr ⟨l, op, rfl, rfl, h⟩)
    | readOpState => cases h; exact .inl (hl.trans (hostOnly_hostSees _ _))
    | readResultKind => exact .inl (hl.trans (hostOnly_of_hostReadKind h))
    | readResultValue => exact .inl (hl.trans (hostOnly_of_hostReadValue h))
    | readTB o =>
      obtain ⟨b, -, hb⟩ := withReg_eq_next.1 h
      cases hb
      exact .inl (hl.trans (hostOnly_hostSees _ _))
    | wait | pause => cases h; exact .inl hl

/-! ## The starts -/

/-- What a block operation's prechecks have checked where its command comes next (R210, R211, R53, R54). -/
structure StartsBlock (x : Xfer) (wa : Word) (s : State) : Prop where
  session : s.sessionValid = true
  block : x.block = 0
  single : x.multi = false → x.count = 1
  operands : ∃ bl a cap, s.blockLen = some bl ∧ s.reqAddr = some a ∧ aligned bl a = true ∧ s.capClass = some cap
    ∧ wireArg cap bl a = some wa ∧ (x.multi = true → ∃ l, s.reqLen = some l ∧ x.count = blockCount bl l)

/-- What the start of an operation can do, by the code in `REQ_OP` (R98). -/
inductive Started (s : State) : BitVec 4 → State → Prop
  | init : Started s 1 (goCmd .reset .reset 0 (initStart s))
  | readStatus : Started s 6 (goCmd .sendStatus .sendStatus 0 (select s))
  | accessor (op : BitVec 4) (v : Half) (h : op ≠ 1) : Started s op (returnValue v s)
  | failed (op : BitVec 4) (e : ErrorKind) (h : op ≠ 1)
      (he : e = .addressMisaligned ∨ e = .dataLengthNotBlockMultiple) : Started s op (endNoBus (some e) s)
  | read (op : BitVec 4) (x : Xfer) (wa : Word) (h : op ≠ 1) (hx : StartsBlock x wa s) :
      Started s op (goCmd (.readCmd x) (if x.multi then .readMulti else .readSingle) wa (select s))
  | write (op : BitVec 4) (x : Xfer) (wa : Word) (h : op ≠ 1) (hx : StartsBlock x wa s) :
      Started s op (goCmd (.writeCmd x) (if x.multi then .writeMulti else .writeSingle) wa (select s))

theorem toCard_eq_next {bl : Word} {a : Nat} {s t : State} {k : Word → State} :
    toCard bl a s k = .next t ↔ ∃ cap wa, s.capClass = some cap ∧ wireArg cap bl a = some wa ∧ k wa = t := by
  simp only [toCard, withReg_eq_next]
  refine exists_congr fun cap => ?_
  cases wireArg cap bl a <;> simp

/-- What the shared prechecks can do: an error of the operands, or the operation's first command. -/
theorem blockStart_cases {multi : Bool} {s t : State} {k : Word → Xfer → State} (h : blockStart multi s k = .next t) :
    (∃ e, (e = .addressMisaligned ∨ e = .dataLengthNotBlockMultiple) ∧ t = endNoBus (some e) s)
    ∨ ∃ x wa, x.multi = multi ∧ StartsBlock x wa s ∧ t = k wa x := by
  unfold blockStart at h
  split at h
  · cases h
  next hv =>
  obtain ⟨bl, hbl, h⟩ := withReg_eq_next.1 h
  obtain ⟨a, ha, h⟩ := withReg_eq_next.1 h
  split at h
  · cases h; exact .inl ⟨_, .inl rfl, rfl⟩
  next hal =>
  simp only [Bool.not_eq_false] at hv hal
  cases multi with
  | false =>
    obtain ⟨cap, wa, hcap, hwa, hk⟩ := toCard_eq_next.1 h
    exact .inr ⟨.single, wa, rfl, ⟨hv, rfl, fun _ => rfl, bl, a, cap, hbl, ha, hal, hcap, hwa, nofun⟩, hk.symm⟩
  | true =>
    obtain ⟨l, hl, h⟩ := withReg_eq_next.1 h
    split at h
    · cases h; exact .inl ⟨_, .inr rfl, rfl⟩
    · obtain ⟨cap, wa, hcap, hwa, hk⟩ := toCard_eq_next.1 h
      exact .inr ⟨.ofCount (blockCount bl l), wa, rfl,
        ⟨hv, rfl, nofun, bl, a, cap, hbl, ha, hal, hcap, hwa, fun _ => ⟨l, hl, rfl⟩⟩, hk.symm⟩

/-- A read operation's start. -/
theorem started_of_blockStart_read {multi : Bool} {op : BitVec 4} {s t : State} (hop : op ≠ 1)
    (h : whenIdle s (blockStart multi s fun wa x =>
      goCmd (.readCmd x) (if multi then .readMulti else .readSingle) wa (select s)) = .next t) : Started s op t := by
  obtain ⟨-, h⟩ := whenIdle_eq_next.1 h
  obtain ⟨e, he, rfl⟩ | ⟨x, wa, rfl, hx, rfl⟩ := blockStart_cases h
  · exact .failed op e hop he
  · exact .read op x wa hop hx

/-- A write operation's start. -/
theorem started_of_blockStart_write {multi : Bool} {op : BitVec 4} {s t : State} (hop : op ≠ 1)
    (h : whenIdle s (blockStart multi s fun wa x =>
      goCmd (.writeCmd x) (if multi then .writeMulti else .writeSingle) wa (select s)) = .next t) : Started s op t := by
  obtain ⟨-, h⟩ := whenIdle_eq_next.1 h
  obtain ⟨e, he, rfl⟩ | ⟨x, wa, rfl, hx, rfl⟩ := blockStart_cases h
  · exact .failed op e hop he
  · exact .write op x wa hop hx

/-- An accessor's start. -/
theorem started_of_accessor {α : Type} {r : RegName} {v : Option α} {f : α → Half} {op : BitVec 4} {s t : State}
    (hop : op ≠ 1) (h : whenIdle s (withReg r v fun a => .next (returnValue (f a) s)) = .next t) : Started s op t := by
  obtain ⟨-, h⟩ := whenIdle_eq_next.1 h
  obtain ⟨a, -, h⟩ := withReg_eq_next.1 h
  cases h
  exact .accessor op _ hop

/-- Everything a start can do (R98, R100). -/
theorem exec_hostOp_cases {op : BitVec 4} {s t : State} (h : exec (decodeHostOp op) s = .next t) : Started s op t := by
  obtain ⟨⟨op, hlt⟩⟩ := op
  match op, hlt with
  | 1, _ => cases (whenIdle_eq_next.1 h).2; exact .init
  | 2, _ => exact started_of_blockStart_read (multi := false) nofun h
  | 3, _ => exact started_of_blockStart_write (multi := false) nofun h
  | 4, _ => exact started_of_blockStart_read (multi := true) nofun h
  | 5, _ => exact started_of_blockStart_write (multi := true) nofun h
  | 6, _ => cases (whenIdle_eq_next.1 h).2; exact .readStatus
  | 7, _ | 8, _ | 9, _ => exact started_of_accessor nofun h
  | 0, _ | 10, _ | 11, _ | 12, _ | 13, _ | 14, _ | 15, _ => cases h

end Sys2Proof.Machine
end

section
/-! PROOFS. The running operation's own step as one function of its position, and that the fetch of each
position comes to it. -/

namespace Sys2Proof.Machine
open Sys2Proof.Claims

/-! ## The running operation's own step, position by position -/

/-- The command a position issues (R172-R182, R160, R215, R220, R228, R229, R234). -/
def posCmd : Pos → Option Cmd
  | .reset => some .reset
  | .ifCond => some .ifCond
  | .ocrFamily => some .readOcr
  | .appPrefix _ _ => some .appPrefix
  | .appOpCond _ _ => some .appOpCond
  | .opCond _ => some .sendOpCond
  | .ocrCapacity _ => some .readOcr
  | .setBlockLen => some .setBlockLen
  | .sendStatus => some .sendStatus
  | .readCmd x => some (if x.multi then .readMulti else .readSingle)
  | .writeCmd x => some (if x.multi then .writeMulti else .writeSingle)
  | .readStop _ => some .stopTransmission
  | _ => none

/-- One attempt of the token poll after its `Recv` (R94, R214). -/
def tokenReceived (x : Xfer) (k : Nat) (b : Byte) (s : State) : Host.Outcome State Fault Refusal :=
  if b = rxStartToken s.cfg x.multi then startReceived x s
  else .next (if b &&& s.cfg.errTokenMask = 0 then readFail x (decodeErrorToken b) s else tokenSkipped x k s)

/-- The verdict of a data-response token (R222). -/
def verdict (x : Xfer) (b : Byte) (s : State) : State :=
  if b &&& 0x1F = 0x05 then writeNext x.next s
  else if b &&& 0x1F = 0x0B then writeFail x .blockCrcInvalid s
  else if b &&& 0x1F = 0x0D then writeFail x .cardControllerFailure s
  else writeFail x .unknownProtocolFault s

/-- What the running operation does next at a position, `arg` the argument of the command it issues there. -/
def ownStep (arg : Word) (s : State) : Pos → Host.Outcome State Fault Refusal
  | .reset => .next (step1Reset (issue .reset arg s))
  | .ifCond => .next (step2Voltage (issue .ifCond arg s))
  | .ocrFamily => .next (step3Family (issue .readOcr arg s))
  | .step4 => beginStep4 s
  | .appPrefix harg k => .next (step4Prefix harg k (issue .appPrefix arg s))
  | .appOpCond harg k => .next (step4AppOpCond harg k (issue .appOpCond arg s))
  | .opCond k => .next (step4Fallback k (issue .sendOpCond arg s))
  | .step5 => beginStep5 s
  | .ocrCapacity k => .next (step5Ocr k (issue .readOcr arg s))
  | .step6 => beginStep6 s
  | .setBlockLen => .next (step6SetLen (issue .setBlockLen arg s))
  | .sendStatus => .next (finishReadStatus (issue .sendStatus arg s))
  | .readCmd x => .next (blockCmdResp (readNext x) (issue (if x.multi then .readMulti else .readSingle) arg s))
  | .readToken x k => tokenReceived x k (recv s).1 (recv s).2
  | .writeCmd x => .next (blockCmdResp (writeNext x) (issue (if x.multi then .writeMulti else .writeSingle) arg s))
  | .writeFrame x => sendFrame (txStartToken s.cfg x.multi) x s
  | .dataResp x k => .next (pollDataResp x k s)
  | .writeBusy x b => .next (busyWait (setPos (.writeVerdict x b)) s)
  | .writeVerdict x b => .next (verdict x b s)
  | .readStop err => .next (readStopIssued err (issue .stopTransmission arg s))
  | .readStopBusy err => .next (busyWait (endOp .blockIO err) s)
  | .writeStop err => .next (setPos (.writeStopBusy err) (sendAll [s.cfg.tokStopMultiWr] s))
  | .writeStopBusy err => .next (busyWait (endOp .blockIO err) s)

theorem fetchAt_of_issues {p : Pos} (h : Issues p) (s : State) : fetchAt p s = fetchPacket s := by
  cases p <;> trivial

theorem issues_of_posCmd {p : Pos} {k : Cmd} (h : posCmd p = some k) : Issues p := by
  cases p <;> trivial

/-- At a position that issues a command, that command's meaning is the position's own step. -/
theorem exec_posCmd {p : Pos} {k : Cmd} {s : State} (hp : s.opState = .busy p) (hk : posCmd p = some k)
    (arg : Word) (crc : BitVec 7) : exec (.ofCmd k arg crc) s = ownStep arg s p := by
  cases p with
  | step4 | step5 | step6 | readToken | writeFrame | dataResp | writeBusy | writeVerdict | readStopBusy | writeStop
  | writeStopBusy => cases hk
  | readCmd x =>
    obtain ⟨multi, j, n⟩ := x
    cases multi <;> cases hk <;> simp [Instr.ofCmd, exec, execCmdReadSingle, execCmdReadMulti, hp, ownStep]
  | writeCmd x =>
    obtain ⟨multi, j, n⟩ := x
    cases multi <;> cases hk <;> simp [Instr.ofCmd, exec, execCmdWriteSingle, execCmdWriteMulti, hp, ownStep]
  | reset => cases hk; simp [Instr.ofCmd, exec, execCmdReset, hp, ownStep]
  | ifCond => cases hk; simp [Instr.ofCmd, exec, execCmdIfCond, hp, ownStep]
  | ocrFamily | ocrCapacity => cases hk; simp [Instr.ofCmd, exec, execCmdReadOcr, hp, ownStep]
  | appPrefix => cases hk; simp [Instr.ofCmd, exec, execCmdAppPrefix, hp, ownStep]
  | appOpCond => cases hk; simp [Instr.ofCmd, exec, execCmdAppOpCond, hp, ownStep]
  | opCond => cases hk; simp [Instr.ofCmd, exec, execCmdSendOpCond, hp, ownStep]
  | setBlockLen => cases hk; simp [Instr.ofCmd, exec, execCmdSetBlockLen, hp, ownStep]
  | sendStatus => cases hk; simp [Instr.ofCmd, exec, execCmdSendStatus, hp, ownStep]
  | readStop => cases hk; simp [Instr.ofCmd, exec, execCmdStopTransmission, hp, ownStep]

/-- At a position that issues a command `PKT` holds that command's packet (R34, R131). -/
theorem pkt_of_posInv {p : Pos} {k : Cmd} {s : State} (h : PosInv s p) (hk : posCmd p = some k) :
    ∃ arg, s.pkt = frame (s.cfg.idx k) arg := by
  cases p with
  | step4 | step5 | step6 | readToken | writeFrame | dataResp | writeBusy | writeVerdict | readStopBusy | writeStop
  | writeStopBusy => cases hk
  | readCmd | writeCmd =>
    cases hk
    obtain ⟨-, -, -, -, _, _, -, -, -, wa, -, hpkt⟩ := h
    exact ⟨wa, hpkt⟩
  | reset | ifCond | ocrFamily | readStop => cases hk; obtain ⟨-, -, hpkt⟩ := h; exact ⟨_, hpkt⟩
  | appPrefix | appOpCond => cases hk; obtain ⟨-, -, -, -, -, -, hpkt⟩ := h; exact ⟨_, hpkt⟩
  | opCond => cases hk; obtain ⟨-, -, -, -, hpkt⟩ := h; exact ⟨_, hpkt⟩
  | ocrCapacity => cases hk; obtain ⟨-, -, -, -, -, hpkt⟩ := h; exact ⟨_, hpkt⟩
  | setBlockLen => cases hk; obtain ⟨-, -, -, hpkt⟩ := h; exact ⟨_, hpkt⟩
  | sendStatus => cases hk; exact ⟨_, h⟩

/-- The token poll's byte is classified, and its token runs (R94, R214). -/
theorem turn_readToken {x : Xfer} {k : Nat} {s : State} (hp : s.opState = .busy (.readToken x k)) :
    turnOutcome (fetchRxToken x k s) = tokenReceived x k (recv s).1 (recv s).2 := by
  have hu : (recv s).2.opState = .busy (.readToken x k) := (recv_opState s).trans hp
  obtain ⟨multi, j, n⟩ := x
  simp only [fetchRxToken, decode, decodeRxToken, tokenReceived]
  generalize recv s = r at hu ⊢
  obtain ⟨b, u⟩ := r
  dsimp only at hu
  by_cases hstart : b = rxStartToken u.cfg multi
  · cases multi <;> simp [hstart, turnOutcome, exec, execTokStartSingle, execTokStartMultiRd, hu]
  · by_cases herr : b &&& u.cfg.errTokenMask = 0#8
    · simp [hstart, herr, turnOutcome, exec, execErrorToken, hu]
    · simp [hstart, herr, turnOutcome]

/-- Before a block of a write the start token's meaning is its frame (R221, R234). -/
theorem exec_startToken_writeFrame {multi : Bool} {j n : Nat} {s : State}
    (hp : s.opState = .busy (.writeFrame ⟨multi, j, n⟩)) :
    exec (if multi then .tokStartMultiWr else .tokStartSingle) s
      = sendFrame (txStartToken s.cfg multi) ⟨multi, j, n⟩ s := by
  cases multi <;> simp [exec, execTokStartSingle, execTokStartMultiWr, hp, txStartToken]

/-- The start token of a write decodes to its own row: the tokens of a valid configuration are distinct (R8). -/
theorem decode_txStartToken {c : Config} (h : c.valid = true) (multi : Bool) :
    decode c .txToken [txStartToken c multi] = .ok (if multi then .tokStartMultiWr else .tokStartSingle) := by
  obtain ⟨hsm, -, -, -⟩ := Config.valid_tokens h
  cases multi <;> simp [decode, decodeTxToken, txStartToken, hsm.symm]

theorem turn_writeFrame {x : Xfer} {s : State} (hv : s.cfg.valid = true) (hp : s.opState = .busy (.writeFrame x)) :
    turnOutcome (fetchTxToken (txStartToken s.cfg x.multi) s) = sendFrame (txStartToken s.cfg x.multi) x s := by
  rw [fetchTxToken, decode_txStartToken hv]
  exact exec_startToken_writeFrame hp

/-- The stop token decodes to its own row. -/
theorem turn_writeStop {err : Option ErrorKind} {s : State} (hv : s.cfg.valid = true)
    (hp : s.opState = .busy (.writeStop err)) :
    turnOutcome (fetchTxToken s.cfg.tokStopMultiWr s)
      = .next (setPos (.writeStopBusy err) (sendAll [s.cfg.tokStopMultiWr] s)) := by
  obtain ⟨-, hss, hms, -⟩ := Config.valid_tokens hv
  simp [fetchTxToken, decode, decodeTxToken, hss.symm, hms.symm, turnOutcome, exec, execTokStopMultiWr, hp]

/-- The data response is one of its three rows, or unknown (R222). -/
theorem turn_writeVerdict {x : Xfer} {b : Byte} {s : State} (hp : s.opState = .busy (.writeVerdict x b)) :
    turnOutcome (fetchDataResp x b s) = .next (verdict x b s) := by
  simp only [fetchDataResp, decode, decodeDataResp, verdict]
  by_cases h5 : b &&& 31#8 = 5#8
  · simp [h5, turnOutcome, exec, execDataRespAccepted, hp]
  by_cases hB : b &&& 31#8 = 11#8
  · simp [hB, turnOutcome, exec, execDataRespCrcRejected, hp]
  by_cases hD : b &&& 31#8 = 13#8
  · simp [hD, turnOutcome, exec, execDataRespWriteRejected, hp]
  · simp [h5, hB, hD, turnOutcome]

/-- Under the invariant the running operation's own step is its position's (R21): the packet or token it fetches
decodes to the instruction of that position. -/
theorem turn_eq_ownStep {s : State} {p : Pos} (hi : Inv s) (hp : s.opState = .busy p) :
    ∃ arg, turnOutcome (fetchAt p s) = ownStep arg s p := by
  cases hk : posCmd p with
  | some k =>
    obtain ⟨arg, hpkt⟩ := pkt_of_posInv (hi.pos p hp) hk
    obtain ⟨crc, hrun⟩ := fetch_packet hi.cfg k arg hpkt
    exact ⟨arg, by rw [fetchAt_of_issues (issues_of_posCmd hk), hrun]; exact exec_posCmd hp hk arg crc⟩
  | none =>
    refine ⟨0, ?_⟩
    cases p with
    | reset | ifCond | ocrFamily | appPrefix | appOpCond | opCond | ocrCapacity | setBlockLen | sendStatus | readCmd
    | writeCmd | readStop => cases hk
    | step4 | step5 | step6 | dataResp | writeBusy | readStopBusy | writeStopBusy => rfl
    | readToken => exact turn_readToken hp
    | writeFrame => exact turn_writeFrame hi.cfg hp
    | writeVerdict => exact turn_writeVerdict hp
    | writeStop => exact turn_writeStop hi.cfg hp

end Sys2Proof.Machine
end

section
/-! PROOFS. The invariant (O52): what each part of a procedure keeps, assembled position by position, and the
host's actions and starts. -/

namespace Sys2Proof.Machine

/-! ## The invariant through the port and through the registers an `INIT` writes -/

theorem PortOnly.negotiating {s t : State} {n : NegState} (h : PortOnly s t) (hn : Negotiating n s) : Negotiating n t := by
  obtain ⟨_, _, ht⟩ := h
  rw [ht]
  exact hn

theorem PortOnly.classified {s t : State} {g f c : Bool} (h : PortOnly s t) (hc : Classified g f c s) :
    Classified g f c t := by
  obtain ⟨_, _, ht⟩ := h
  rw [ht]
  exact hc

theorem PortOnly.transferring {s t : State} {x : Xfer} (h : PortOnly s t) (hx : Transferring x s) :
    Transferring x t := by
  obtain ⟨_, _, ht⟩ := h
  rw [ht]
  exact hx

/-- Outside a session the registers `INIT` writes are free (R38 a). -/
theorem Running.registers {s : State} (h : Running s) (hs : s.sessionValid = false) (g : Option Generation)
    (f : Option Family) (c : Option CapClass) (n : NegState) :
    Running { s with generation := g, family := f, capClass := c, negState := n } where
  cfg := h.cfg
  session hv := by rw [hs] at hv; cases hv
  tb := h.tb
  operands := h.operands
  on := h.on
  result := h.result

/-! ## The steps of `INIT` keep the invariant (R170-R184) -/

theorem step1Reset_inv {o : Issued × State} (h : Running o.2) (hn : Negotiating .powerOn o.2)
    (hc : Classified false false false o.2) : Inv (step1Reset o) := by
  obtain ⟨-, hs, hclk, hbl⟩ := hn
  obtain ⟨_ | ⟨r, bs⟩, u⟩ := o
  · exact h.raiseInit _ (by decide) hs
  · simp only [step1Reset]
    split
    · exact (h.registers hs ..).goCmd ⟨⟨rfl, hs, hclk, hbl⟩, hc, rfl⟩
    · exact h.raiseInit _ (by decide) hs

theorem step2Pass_inv {s : State} {n : NegState} {g : Generation} (h : Running s) (hn : Negotiating n s)
    (hc : Classified false false false s) : Inv (step2Pass { s with generation := some g }) := by
  obtain ⟨-, hs, hclk, hbl⟩ := hn
  obtain ⟨-, hf, hcap⟩ := hc
  exact (h.registers hs ..).goCmd ⟨⟨rfl, hs, hclk, hbl⟩, ⟨rfl, hf, hcap⟩, rfl⟩

theorem step2Voltage_inv {o : Issued × State} (h : Running o.2) (hn : Negotiating .idle o.2)
    (hc : Classified false false false o.2) : Inv (step2Voltage o) := by
  have ⟨_, hs, _, _⟩ := hn
  obtain ⟨_ | ⟨r, bs⟩, u⟩ := o
  · exact h.raiseInit _ (by decide) hs
  · simp only [step2Voltage]
    split
    · exact step2Pass_inv h hn hc
    split
    · exact (h.registers hs ..).raiseInit _ (by decide) hs
    split
    · exact (h.registers hs ..).raiseInit _ (by decide) hs
    · exact step2Pass_inv h hn hc

theorem step3Pass_inv {s : State} {n : NegState} {f : Family} (h : Running s) (hn : Negotiating n s)
    (hc : Classified true false false s) : Inv (step3Pass { s with family := some f }) := by
  obtain ⟨-, hs, hclk, hbl⟩ := hn
  obtain ⟨hg, -, hcap⟩ := hc
  exact (h.registers hs ..).setPos ⟨⟨rfl, hs, hclk, hbl⟩, hg, rfl, hcap⟩

theorem step3Family_inv {o : Issued × State} (h : Running o.2) (hn : Negotiating .voltageChecked o.2)
    (hc : Classified true false false o.2) : Inv (step3Family o) := by
  have ⟨_, hs, _, _⟩ := hn
  obtain ⟨_ | ⟨r, bs⟩, u⟩ := o
  · exact h.raiseInit _ (by decide) hs
  · simp only [step3Family]
    split
    · exact step3Pass_inv h hn hc
    split
    · exact step3Pass_inv h hn hc
    · exact (h.registers hs ..).raiseInit _ (by decide) hs

/-! Every loop has a budget to begin with (R8). -/

theorem one_le_initPollMax {c : Config} (h : c.valid = true) : 1 ≤ c.initPollMax :=
  Config.valid_budgets h _ (by simp)

theorem one_le_ocrPollMax {c : Config} (h : c.valid = true) : 1 ≤ c.ocrPollMax :=
  Config.valid_budgets h _ (by simp)

theorem one_le_tokenPollMax {c : Config} (h : c.valid = true) : 1 ≤ c.tokenPollMax :=
  Config.valid_budgets h _ (by simp)

theorem one_le_drespPollMax {c : Config} (h : c.valid = true) : 1 ≤ c.drespPollMax :=
  Config.valid_budgets h _ (by simp)

/-- Step 4 begins one of its two loops at attempt 1 (R177, R178). -/
theorem beginStep4_inv {s t : State} (h : Running s) (hn : Negotiating .familyKnown s)
    (hc : Classified true true false s) (ht : beginStep4 s = .next t) : Inv t := by
  have hk := one_le_initPollMax h.cfg
  obtain ⟨f, hf, ht⟩ := withReg_eq_next.1 ht
  cases f with
  | mmc => cases ht; exact h.goCmd ⟨hn, hc, le_rfl, hk, rfl⟩
  | sd =>
    obtain ⟨g, hg, ht⟩ := withReg_eq_next.1 ht
    cases ht
    exact h.goCmd ⟨hn, hc, hf, by simp [hg], le_rfl, hk, rfl⟩

theorem prefixFailed_inv {s : State} (p : Byte) (h : Running s) (hs : s.sessionValid = false) :
    Inv (prefixFailed p s) := by
  unfold prefixFailed
  split <;> exact h.raiseInit _ (by decide) hs

/-- What stays true from attempt to attempt of the SD loop (R177). -/
def SdAttempt (harg : Word) (k : Nat) (s : State) : Prop :=
  Negotiating .familyKnown s ∧ Classified true true false s ∧ s.family = some .sd
    ∧ s.generation.map opCondArg = some harg ∧ 1 ≤ k ∧ k ≤ s.cfg.initPollMax

theorem PortOnly.sdAttempt {s t : State} {harg : Word} {k : Nat} (h : PortOnly s t) (ha : SdAttempt harg k s) :
    SdAttempt harg k t := by
  obtain ⟨_, _, ht⟩ := h
  rw [ht]
  exact ha

theorem step4Pass_inv {s : State} {n : NegState} (h : Running s) (hn : Negotiating n s)
    (hc : Classified true true false s) : Inv (step4Pass s) := by
  obtain ⟨-, hs, hclk, hbl⟩ := hn
  exact (h.registers hs ..).setPos ⟨⟨rfl, hs, hclk, hbl⟩, hc⟩

theorem step4Prefix_inv {harg : Word} {k : Nat} {o : Issued × State} (h : Running o.2) (ha : SdAttempt harg k o.2) :
    Inv (step4Prefix harg k o) := by
  obtain ⟨hn, hc, hf, hg, h1, hk⟩ := ha
  have ⟨_, hs, _, _⟩ := hn
  obtain ⟨_ | ⟨r, bs⟩, u⟩ := o
  · exact h.raiseInit _ (by decide) hs
  · simp only [step4Prefix]
    split
    · exact h.goCmd ⟨hn, hc, hf, hg, h1, hk, rfl⟩
    · exact prefixFailed_inv r h hs

theorem step4Target_inv {harg : Word} {k : Nat} {s : State} (r : Byte) (h : Running s) (ha : SdAttempt harg k s) :
    Inv (step4Target harg k r s) := by
  obtain ⟨hn, hc, hf, hg, h1, hk⟩ := ha
  have ⟨_, hs, _, _⟩ := hn
  unfold step4Target
  split
  · exact h.raiseInit _ (by decide) hs
  split
  · exact step4Pass_inv h hn hc
  split
  · next hlt => exact h.goCmd ⟨hn, hc, hf, hg, Nat.le_add_left 1 k, hlt, rfl⟩
  · exact h.goCmd ⟨hn, hc, le_rfl, one_le_initPollMax h.cfg, rfl⟩

theorem step4AppOpCond_inv {harg : Word} {k : Nat} {o : Issued × State} (h : Running o.2)
    (ha : SdAttempt harg k o.2) : Inv (step4AppOpCond harg k o) := by
  obtain ⟨_ | ⟨r, bs⟩, u⟩ := o
  · obtain ⟨⟨-, hs, -⟩, -⟩ := ha
    exact h.raiseInit _ (by decide) hs
  · exact step4Target_inv r h ha

theorem step4Fallback_inv {k : Nat} {o : Issued × State} (h : Running o.2) (hn : Negotiating .familyKnown o.2)
    (hc : Classified true true false o.2) : Inv (step4Fallback k o) := by
  have ⟨_, hs, _, _⟩ := hn
  obtain ⟨_ | ⟨r, bs⟩, u⟩ := o
  · exact h.raiseInit _ (by decide) hs
  · simp only [step4Fallback]
    split
    · exact h.raiseInit _ (by decide) hs
    split
    · exact step4Pass_inv h hn hc
    split
    · next hlt => exact h.goCmd ⟨hn, hc, Nat.le_add_left 1 k, hlt, rfl⟩
    · exact h.raiseInit _ (by decide) hs

theorem step5Pass_inv {s : State} {n : NegState} (cap : CapClass) (h : Running s) (hn : Negotiating n s)
    (hc : Classified true true false s) : Inv (step5Pass cap s) := by
  obtain ⟨-, hs, hclk, hbl⟩ := hn
  obtain ⟨hg, hf, -⟩ := hc
  exact (h.registers hs ..).setPos ⟨⟨rfl, hs, hclk, hbl⟩, hg, hf, rfl⟩

theorem beginStep5_inv {s t : State} (h : Running s) (hn : Negotiating .negotiated s)
    (hc : Classified true true false s) (ht : beginStep5 s = .next t) : Inv t := by
  obtain ⟨g, hg, ht⟩ := withReg_eq_next.1 ht
  cases g with
  | v2 => cases ht; exact h.goCmd ⟨hn, hc, hg, le_rfl, one_le_ocrPollMax h.cfg, rfl⟩
  | legacy => cases ht; exact step5Pass_inv _ h hn hc

theorem step5Ocr_inv {k : Nat} {o : Issued × State} (h : Running o.2) (hn : Negotiating .negotiated o.2)
    (hc : Classified true true false o.2) (hg : o.2.generation = some .v2) : Inv (step5Ocr k o) := by
  have ⟨_, hs, _, _⟩ := hn
  obtain ⟨_ | ⟨r, bs⟩, u⟩ := o
  · exact h.raiseInit _ (by decide) hs
  · simp only [step5Ocr]
    split
    · exact h.raiseInit _ (by decide) hs
    split
    · exact step5Pass_inv _ h hn hc
    split
    · next hlt => exact h.goCmd ⟨hn, hc, hg, Nat.le_add_left 1 k, hlt, rfl⟩
    · exact h.raiseInit _ (by decide) hs

/-- The end of `INIT` writes what a session implies (R38 a, R182, R183). -/
theorem initReady_inv {s : State} (h : Running s) (hc : Classified true true true s) : Inv (initReady s) := by
  have hr : Running { s with
      blockLen := some s.cfg.blockLenOp
      clockMode := .fast
      bus := s.bus ++ [.setClock s.cfg.clkFast]
      negState := .ready
      sessionValid := true } :=
    ⟨h.cfg, fun _ => ⟨rfl, rfl, rfl, hc⟩, h.tb, h.operands, (portRun_setClock _ _).trans h.on, h.result⟩
  exact hr.endGood .negotiation

theorem beginStep6_inv {s t : State} (h : Running s) (hn : Negotiating .capacityClassified s)
    (hc : Classified true true true s) (ht : beginStep6 s = .next t) : Inv t := by
  obtain ⟨cap, hcap, ht⟩ := withReg_eq_next.1 ht
  cases cap with
  | standard => cases ht; exact h.goCmd ⟨hn, hc, hcap, rfl⟩
  | high => cases ht; exact initReady_inv h hc

theorem step6SetLen_inv {o : Issued × State} (h : Running o.2) (hn : Negotiating .capacityClassified o.2)
    (hc : Classified true true true o.2) : Inv (step6SetLen o) := by
  have ⟨_, hs, _, _⟩ := hn
  obtain ⟨_ | ⟨r, bs⟩, u⟩ := o
  · exact h.raiseInit _ (by decide) hs
  · simp only [step6SetLen]
    split
    · exact initReady_inv h hc
    · exact h.raiseInit _ (by decide) hs

/-- The end of `READ_STATUS` keeps the invariant (R160). -/
theorem finishReadStatus_inv {o : Issued × State} (h : Running o.2) : Inv (finishReadStatus o) := by
  obtain ⟨_ | ⟨r, bs⟩, u⟩ := o
  · exact h.endBad _ _ (by decide) (by decide)
  · have hv : Running { u with resultValue := some ((ofBe (r :: bs)).extractLsb' 0 16) } :=
      ⟨h.cfg, h.session, h.tb, h.operands, h.on, h.result⟩
    exact hv.endGood .status

/-! ## The steps of a block operation keep the invariant (R210-R235) -/

/-- A transfer between blocks: like one at a block, but no block need be left (R228, R234). -/
def AtBlock (x : Xfer) (s : State) : Prop :=
  s.sessionValid = true ∧ x.count * s.cfg.blockLenOp.toNat ≤ transferLen x s ∧ (x.multi = false → x.count = 1)

theorem Transferring.atBlock {x : Xfer} {s : State} (h : Transferring x s) : AtBlock x s := by
  obtain ⟨hs, -, hlen, hone⟩ := h
  exact ⟨hs, hlen, hone⟩

theorem PortOnly.atBlock {s t : State} {x : Xfer} (h : PortOnly s t) (hx : AtBlock x s) : AtBlock x t := by
  obtain ⟨_, _, ht⟩ := h
  rw [ht]
  exact hx

theorem AtBlock.next {x : Xfer} {s : State} (h : AtBlock x s) : AtBlock x.next s := h

theorem AtBlock.transferring {x : Xfer} {s : State} (h : AtBlock x s) (hb : x.hasBlock = true) : Transferring x s := by
  obtain ⟨hs, hlen, hone⟩ := h
  exact ⟨hs, of_decide_eq_true hb, hlen, hone⟩

theorem goReadStop_inv {s : State} {err : Option ErrorKind} (h : Running s) (hs : s.sessionValid = true)
    (he : ∀ e, err = some e → e ∈ readErrors) : Inv (goReadStop err s) :=
  h.goCmd ⟨hs, he, rfl⟩

/-- A block operation ends with one of its own errors (R263). -/
theorem Running.endBlock {s : State} {e : ErrorKind} (h : Running s) (he : e ∈ readErrors ∨ e ∈ writeErrors) :
    Inv (Machine.endOp .blockIO (some e) s) :=
  h.endBad _ _ (by decide) (by rcases he with he | he <;> revert he <;> cases e <;> decide)

/-- A block operation ends after its stop sequence (R228, R234). -/
theorem Running.endStopped {s : State} {err : Option ErrorKind} (h : Running s)
    (he : ∀ e, err = some e → e ∈ readErrors ∨ e ∈ writeErrors) : Inv (Machine.endOp .blockIO err s) := by
  cases err with
  | none => exact h.endGood _
  | some e => exact h.endBlock (he e rfl)

theorem readNext_inv {x : Xfer} {s : State} (h : Running s) (hx : AtBlock x s) : Inv (readNext x s) := by
  unfold readNext
  split
  · next hb => exact h.setPos ⟨hx.transferring hb, le_rfl, one_le_tokenPollMax h.cfg⟩
  split
  · exact goReadStop_inv h hx.1 nofun
  · exact h.endGood _

theorem readFail_inv {x : Xfer} {s : State} {e : ErrorKind} (h : Running s) (hs : s.sessionValid = true)
    (he : e ∈ readErrors) : Inv (readFail x e s) := by
  unfold readFail
  split
  · exact goReadStop_inv h hs (by rintro _ ⟨⟩; exact he)
  · exact h.endBlock (.inl he)

theorem writeNext_inv {x : Xfer} {s : State} (h : Running s) (hx : AtBlock x s) : Inv (writeNext x s) := by
  unfold writeNext
  split
  · next hb => exact h.setPos (hx.transferring hb)
  split
  · exact h.setPos ⟨hx.1, nofun⟩
  · exact h.endGood _

theorem writeFail_inv {x : Xfer} {s : State} {e : ErrorKind} (h : Running s) (hs : s.sessionValid = true)
    (he : e ∈ writeErrors) : Inv (writeFail x e s) := by
  unfold writeFail
  split
  · exact h.setPos ⟨hs, by rintro _ ⟨⟩; exact he⟩
  · exact h.endBlock (.inr he)

/-- The errors of a block command's response are no register decoder's (R213). -/
theorem checkCmdResp_ne {r : Byte} {e : ErrorKind} (h : checkCmdResp r = some e) : e ∈ readErrors ∨ e = .addressMisaligned := by
  unfold checkCmdResp at h
  split_ifs at h <;> cases h <;> decide

theorem blockCmdResp_inv {go : State → State} {o : Issued × State} (h : Running o.2) (hgo : Inv (go o.2)) :
    Inv (blockCmdResp go o) := by
  obtain ⟨_ | ⟨r, bs⟩, u⟩ := o
  · exact h.endBlock (.inl (by decide))
  · simp only [blockCmdResp]
    split
    · exact hgo
    · next e he =>
      rcases checkCmdResp_ne he with he | rfl
      · exact h.endBlock (.inl he)
      · exact h.endBad _ _ (by decide) (by decide)

theorem decodeErrorToken_mem (b : Byte) : decodeErrorToken b ∈ readErrors := by
  unfold decodeErrorToken
  split_ifs <;> decide

theorem tokenSkipped_inv {x : Xfer} {k : Nat} {s : State} (h : Running s) (hx : Transferring x s) :
    Inv (tokenSkipped x k s) := by
  unfold tokenSkipped
  split
  · next hlt => exact h.setPos ⟨hx, Nat.le_add_left 1 k, hlt⟩
  · exact readFail_inv h hx.1 (by decide)

/-- A block received lies inside TB (R52). -/
theorem Transferring.block_le {x : Xfer} {s : State} (h : Running s) (hx : Transferring x s) :
    x.offset s.cfg.blockLenOp + s.cfg.blockLenOp.toNat ≤ tbSize s.cfg := by
  obtain ⟨-, hb, hlen, -⟩ := hx
  have hmul : (x.block + 1) * s.cfg.blockLenOp.toNat ≤ x.count * s.cfg.blockLenOp.toNat := Nat.mul_le_mul_right _ hb
  have hsize : transferLen x s ≤ tbSize s.cfg := by
    unfold transferLen tbSize
    split
    · cases hl : s.reqLen with
      | none => simp
      | some l => exact le_max_of_le_left (h.operands.2 l hl).le
    · exact le_max_right _ _
  rw [Nat.succ_mul] at hmul
  exact hmul.trans (hlen.trans hsize)

/-- Bytes written inside TB keep what holds while an operation runs (R52). -/
theorem Running.storeTB {s : State} (h : Running s) (o : Nat) (bs : List Byte) (hb : o + bs.length ≤ tbSize s.cfg) :
    Running { s with tb := Mem.write s.tb o bs } where
  cfg := h.cfg
  session := h.session
  tb := ⟨Mem.write_wf h.tb.1 o bs, Mem.write_lt h.tb.2 o bs hb⟩
  operands := h.operands
  on := h.on
  result := h.result

theorem recvPayload_inv {x : Xfer} {s : State} (h : Running s) (hx : Transferring x s) :
    Inv (recvPayload x s.cfg.blockLenOp s) := by
  have hport : PortOnly s (recv (recv (recvN s.cfg.blockLenOp.toNat s).2).2).2 :=
    ((PortOnly.recvN _ s).trans (.recv _)).trans (.recv _)
  have hu := (h.port hport).storeTB (x.offset s.cfg.blockLenOp) (recvN s.cfg.blockLenOp.toNat s).1
    (by rw [recvN_length, hport.cfg]; exact hx.block_le h)
  have hxu := hport.transferring hx
  unfold recvPayload
  dsimp only
  split
  · exact readNext_inv hu hxu.atBlock.next
  · exact readFail_inv hu hxu.1 (by decide)

theorem startReceived_inv {x : Xfer} {s t : State} (h : Running s) (hx : Transferring x s)
    (ht : startReceived x s = .next t) : Inv t := by
  obtain ⟨bl, hbl, ht⟩ := withReg_eq_next.1 ht
  obtain ⟨-, hbl', -⟩ := h.session hx.1
  obtain rfl := Option.some.inj (hbl.symm.trans hbl')
  cases ht
  exact recvPayload_inv h hx

theorem tokenReceived_inv {x : Xfer} {k : Nat} {b : Byte} {s t : State} (h : Running s) (hx : Transferring x s)
    (ht : tokenReceived x k b s = .next t) : Inv t := by
  unfold tokenReceived at ht
  split at ht
  · exact startReceived_inv h hx ht
  · cases ht
    split
    · exact readFail_inv h hx.1 (decodeErrorToken_mem b)
    · exact tokenSkipped_inv h hx

theorem sendFrame_inv {tok : Byte} {x : Xfer} {s t : State} (h : Running s) (hx : Transferring x s)
    (ht : sendFrame tok x s = .next t) : Inv t := by
  obtain ⟨bl, -, ht⟩ := withReg_eq_next.1 ht
  obtain ⟨p, -, ht⟩ := withReg_eq_next.1 ht
  cases ht
  exact (h.port (.sendAll _ s)).setPos ⟨hx, le_rfl, one_le_drespPollMax h.cfg⟩

theorem pollDataResp_inv {x : Xfer} {k : Nat} {s : State} (h : Running s) (hx : Transferring x s) :
    Inv (pollDataResp x k s) := by
  have hu := h.port (.recv s)
  have hxu := (PortOnly.recv s).transferring hx
  unfold pollDataResp
  dsimp only
  split
  · next hb => exact hu.setPos ⟨hxu, by simpa using hb⟩
  split
  · next hlt => exact hu.setPos ⟨hxu, Nat.le_add_left 1 k, hlt⟩
  · exact writeFail_inv hu hxu.1 (by decide)

theorem verdict_inv {x : Xfer} {b : Byte} {s : State} (h : Running s) (hx : Transferring x s) :
    Inv (verdict x b s) := by
  unfold verdict
  split_ifs
  · exact writeNext_inv h hx.atBlock.next
  all_goals exact writeFail_inv h hx.1 (by decide)

theorem readStopIssued_inv {err : Option ErrorKind} {o : Issued × State} (h : Running o.2)
    (hs : o.2.sessionValid = true) (he : ∀ e, err = some e → e ∈ readErrors) : Inv (readStopIssued err o) := by
  obtain ⟨_ | ⟨r, bs⟩, u⟩ := o
  · refine h.setPos ⟨hs, ?_⟩
    cases err with
    | none => rintro _ ⟨⟩; decide
    | some e => exact he
  · exact h.setPos ⟨hs, he⟩

/-- A busy-wait stays at its position, or goes on where it ends (R139). -/
theorem busyWait_inv {done : State → State} {p : Pos} {s : State} (h : Running s) (hp : s.opState = .busy p)
    (hq : PosInv (recv s).2 p) (hd : Inv (done (recv s).2)) : Inv (busyWait done s) := by
  unfold busyWait
  dsimp only
  split
  · exact hd
  · exact (h.port (.recv s)).goPos ((recv_opState s).trans hp) hq

/-- The running operation's own step keeps the invariant. -/
theorem ownStep_inv {s t : State} {p : Pos} {arg : Word} (hi : Inv s) (hp : s.opState = .busy p)
    (ht : ownStep arg s p = .next t) : Inv t := by
  have h := hi.running hp
  have hq := hi.pos p hp
  have hissue : ∀ k, Running (issue k arg s).2 := fun k => h.port (.issue k arg s)
  cases p with
  | reset =>
    obtain ⟨hn, hc, -⟩ := hq
    cases ht
    exact step1Reset_inv (hissue _) ((PortOnly.issue ..).negotiating hn) ((PortOnly.issue ..).classified hc)
  | ifCond =>
    obtain ⟨hn, hc, -⟩ := hq
    cases ht
    exact step2Voltage_inv (hissue _) ((PortOnly.issue ..).negotiating hn) ((PortOnly.issue ..).classified hc)
  | ocrFamily =>
    obtain ⟨hn, hc, -⟩ := hq
    cases ht
    exact step3Family_inv (hissue _) ((PortOnly.issue ..).negotiating hn) ((PortOnly.issue ..).classified hc)
  | step4 =>
    obtain ⟨hn, hc⟩ := hq
    exact beginStep4_inv h hn hc ht
  | appPrefix harg k =>
    obtain ⟨hn, hc, hf, hg, h1, hk, -⟩ := hq
    cases ht
    exact step4Prefix_inv (hissue _) ((PortOnly.issue ..).sdAttempt ⟨hn, hc, hf, hg, h1, hk⟩)
  | appOpCond harg k =>
    obtain ⟨hn, hc, hf, hg, h1, hk, -⟩ := hq
    cases ht
    exact step4AppOpCond_inv (hissue _) ((PortOnly.issue ..).sdAttempt ⟨hn, hc, hf, hg, h1, hk⟩)
  | opCond k =>
    obtain ⟨hn, hc, -⟩ := hq
    cases ht
    exact step4Fallback_inv (hissue _) ((PortOnly.issue ..).negotiating hn) ((PortOnly.issue ..).classified hc)
  | step5 =>
    obtain ⟨hn, hc⟩ := hq
    exact beginStep5_inv h hn hc ht
  | ocrCapacity k =>
    obtain ⟨hn, hc, hg, -⟩ := hq
    cases ht
    exact step5Ocr_inv (hissue _) ((PortOnly.issue ..).negotiating hn) ((PortOnly.issue ..).classified hc)
      (by rw [issue_generation, hg])
  | step6 =>
    obtain ⟨hn, hc⟩ := hq
    exact beginStep6_inv h hn hc ht
  | setBlockLen =>
    obtain ⟨hn, hc, -⟩ := hq
    cases ht
    exact step6SetLen_inv (hissue _) ((PortOnly.issue ..).negotiating hn) ((PortOnly.issue ..).classified hc)
  | sendStatus => cases ht; exact finishReadStatus_inv (hissue _)
  | readCmd x =>
    obtain ⟨hs, -, hlen, hone, -⟩ := hq
    cases ht
    exact blockCmdResp_inv (hissue _) (readNext_inv (hissue _) ((PortOnly.issue ..).atBlock ⟨hs, hlen, hone⟩))
  | readToken x k =>
    obtain ⟨hx, -⟩ := hq
    exact tokenReceived_inv (h.port (.recv s)) ((PortOnly.recv s).transferring hx) ht
  | writeCmd x =>
    obtain ⟨hs, -, hlen, hone, -⟩ := hq
    cases ht
    exact blockCmdResp_inv (hissue _) (writeNext_inv (hissue _) ((PortOnly.issue ..).atBlock ⟨hs, hlen, hone⟩))
  | writeFrame x => exact sendFrame_inv h hq ht
  | dataResp x k =>
    obtain ⟨hx, -⟩ := hq
    cases ht
    exact pollDataResp_inv h hx
  | writeBusy x b =>
    obtain ⟨hx, hb⟩ := hq
    have hxu : Transferring x (recv s).2 ∧ b ≠ (recv s).2.cfg.idleFill :=
      ⟨(PortOnly.recv s).transferring hx, by rwa [recv_cfg]⟩
    cases ht
    exact busyWait_inv h hp hxu ((h.port (.recv s)).setPos hxu)
  | writeVerdict x b =>
    obtain ⟨hx, -⟩ := hq
    cases ht
    exact verdict_inv h hx
  | readStop err =>
    obtain ⟨hs, he, -⟩ := hq
    cases ht
    exact readStopIssued_inv (hissue _) (by rw [issue_sessionValid, hs]) he
  | readStopBusy err =>
    obtain ⟨hs, he⟩ := hq
    cases ht
    exact busyWait_inv h hp ⟨by rw [recv_sessionValid, hs], he⟩
      ((h.port (.recv s)).endStopped fun e hx => .inl (he e hx))
  | writeStop err => cases ht; exact (h.port (.sendAll _ s)).setPos hq
  | writeStopBusy err =>
    obtain ⟨hs, he⟩ := hq
    cases ht
    exact busyWait_inv h hp ⟨by rw [recv_sessionValid, hs], he⟩
      ((h.port (.recv s)).endStopped fun e hx => .inr (he e hx))

/-! ## The host's steps keep the invariant -/

/-- The lists of the host are no part of the invariant. -/
theorem Inv.hostOnly {s t : State} (h : Inv s) (ht : HostOnly s t) : Inv t := by
  obtain ⟨_, _, _, rfl⟩ := ht
  exact ⟨h.cfg, h.session, h.tb, h.operands, h.bracket, h.ephemeral, h.result, fun p hp => by
    have hq := h.pos p hp
    cases p <;> exact hq⟩

/-- The host's writes keep the invariant while no operation runs (R31, R52). -/
theorem Inv.hostWrote {s t : State} (h : Inv s) (hs : s.opState = .idle) (ht : HostWrote s t) : Inv t := by
  have hpos : ∀ p, s.opState ≠ .busy p := by simp [hs]
  cases ht with
  | op l v =>
    exact ⟨h.cfg, h.session, h.tb, h.operands, h.bracket, h.ephemeral, h.result, fun p hp => absurd hp (hpos p)⟩
  | addr l v =>
    exact ⟨h.cfg, h.session, h.tb, ⟨by rintro _ ⟨⟩; exact operandValue_lt _ v, h.operands.2⟩, h.bracket, h.ephemeral,
      h.result, fun p hp => absurd hp (hpos p)⟩
  | len l v =>
    exact ⟨h.cfg, h.session, h.tb, ⟨h.operands.1, by rintro _ ⟨⟩; exact operandValue_lt _ v⟩, h.bracket, h.ephemeral,
      h.result, fun p hp => absurd hp (hpos p)⟩
  | tb l o bs hb =>
    exact ⟨h.cfg, h.session, ⟨Mem.write_wf h.tb.1 o bs, Mem.write_lt h.tb.2 o bs hb⟩, h.operands, h.bracket,
      h.ephemeral, h.result, fun p hp => absurd hp (hpos p)⟩

/-- Chip select is released while no operation runs (R154). -/
theorem Inv.portRun_idle {s : State} (h : Inv s) (hs : s.opState = .idle) : portRun s.bus = some false := by
  rw [h.bracket, hs]
  rfl

/-- `Select()` from an IDLE state begins what holds while an operation runs. -/
theorem Inv.select {s : State} (h : Inv s) (hs : s.opState = .idle) : Running (select s) :=
  ⟨h.cfg, h.session, h.tb, h.operands, portRun_select (h.portRun_idle hs), h.result⟩

/-- The end of an operation without bus traffic keeps the invariant (R211, R250). -/
theorem Inv.endNoBus {s : State} {r : Option ErrorKind} (h : Inv s) (hs : s.opState = .idle)
    (hr : some (resultCode r) ≠ some 7 ∧ some (resultCode r) ≠ some 8) : Inv (endNoBus r s) :=
  ⟨h.cfg, h.session, h.tb, h.operands, h.portRun_idle hs, fun _ => h.ephemeral hs, hr, nofun⟩

/-- The registers `Start()` writes are those of `INIT`'s first position (R171). -/
theorem Inv.initStart {s : State} (h : Inv s) (hs : s.opState = .idle) : Inv (goCmd .reset .reset 0 (initStart s)) := by
  refine Running.goCmd ⟨h.cfg, nofun, h.tb, h.operands, ?_, h.result⟩ ⟨⟨rfl, rfl, rfl, rfl⟩, ⟨rfl, rfl, rfl⟩, rfl⟩
  exact portRun_select ((portRun_setClock _ _).trans (h.portRun_idle hs))

/-- The prechecks of a block operation give what holds at its command (R38 c, R210, R211). -/
theorem StartsBlock.blockCommand {x : Xfer} {wa : Word} {s : State} {single multi : Cmd} {p : Pos} (h : Inv s)
    (hx : StartsBlock x wa s) :
    BlockCommand single multi x (goCmd p (if x.multi then multi else single) wa (Machine.select s)) := by
  obtain ⟨hv, hb, hone, bl, a, cap, hbl, ha, hal, hcap, hwa, hlen⟩ := hx
  obtain ⟨-, hbl', -⟩ := h.session hv
  obtain rfl := Option.some.inj (hbl.symm.trans hbl')
  refine ⟨hv, hb, ?_, hone, a, cap, ha, hal, hcap, wa, hwa, rfl⟩
  simp only [transferLen, goCmd_reqLen, goCmd_cfg, select_reqLen, select_cfg]
  split
  · next hm =>
    obtain ⟨l, hl, hcount⟩ := hlen hm
    rw [hcount, hl]
    exact Nat.div_mul_le_self _ _
  · next hm => rw [hone (by simpa using hm), Nat.one_mul]

/-- The start of an operation keeps the invariant. -/
theorem Inv.started {s t : State} {op : BitVec 4} (h : Inv s) (hs : s.opState = .idle) (ht : Started s op t) :
    Inv t := by
  cases ht with
  | init => exact h.initStart hs
  | readStatus => exact (h.select hs).goCmd rfl
  | accessor _ v =>
    have hv : Inv { s with resultValue := some v } :=
      ⟨h.cfg, h.session, h.tb, h.operands, h.bracket, h.ephemeral, h.result, fun p hp => by simp [hs] at hp⟩
    exact hv.endNoBus hs (by decide)
  | failed _ e _ he => exact h.endNoBus hs (by rcases he with rfl | rfl <;> decide)
  | read _ x wa _ hx => exact (h.select hs).goCmd (hx.blockCommand h)
  | write _ x wa _ hx => exact (h.select hs).goCmd (hx.blockCommand h)

/-- Settles O52: the host's actions and the starts keep the invariant while IDLE; while an operation runs its own
step does, position by position. -/
theorem invKeptByEveryStep : Obligations.InvKeptByEveryStep := by
  intro s t h ht
  cases hop : s.opState with
  | idle =>
    obtain hh | hw | ⟨l, op, -, -, hstart⟩ := step_idle_cases hop ht
    · exact h.hostOnly hh
    · exact h.hostWrote hop hw
    · exact (h.hostIn l).started hop (exec_hostOp_cases hstart)
  | busy p =>
    obtain hh | ⟨l, hown⟩ := step_busy_cases hop ht
    · exact h.hostOnly hh
    · obtain ⟨arg, harg⟩ := turn_eq_ownStep (h.hostIn l) hop
      exact ownStep_inv (h.hostIn l) hop (harg.symm.trans hown)

end Sys2Proof.Machine
end

section
/-! PROOFS. What one step is, clause by clause: the fetch and its decoding (O50), a sent block (O41), the host's
actions (O21), the register codes (O13), the reset state (O51); and that a running operation goes on (O53). -/

namespace Sys2Proof.Machine
open Sys2Proof.Claims

/-- With no host action to take first, the step is the running operation's turn. -/
theorem step_unhurried {s : State} {p : Pos} (h : Unhurried s) (hp : s.opState = .busy p) :
    step s = turnOutcome (fetchAt p s) := by
  rw [step_eq, unhurried_fetch h hp]

/-! ## A running operation goes on -/

/-- A range of TB that does not read has a byte that holds no value (R302). -/
theorem Mem.exists_read_none_of_readRange {m : List Host.Cell} {a n : Nat} (h : Mem.readRange m a n = none) :
    ∃ i, i < n ∧ Mem.read m (a + i) = none := by
  induction n generalizing a with
  | zero => cases h
  | succ n ih =>
    cases h0 : Mem.read m a with
    | none => exact ⟨0, n.succ_pos, h0⟩
    | some b =>
      have hrest : Mem.readRange m (a + 1) n = none := by
        cases hr : Mem.readRange m (a + 1) n with
        | none => rfl
        | some bs => simp [Mem.readRange, h0, hr] at h
      obtain ⟨i, hi, hnone⟩ := ih hrest
      exact ⟨i + 1, Nat.succ_lt_succ hi, by rwa [Nat.add_comm i 1, ← Nat.add_assoc]⟩

section
variable {s : State} {x : Xfer} {bl : Word} (tok : Byte) (hbl : s.blockLen = some bl)
include hbl

/-- The bytes of the block, when TB holds them all, are sent as a frame (R221). -/
theorem sendFrame_of_some {p : List Byte} (hr : Mem.readRange s.tb (x.block * bl.toNat) bl.toNat = some p) :
    sendFrame tok x s = .next (setPos (.dataResp x 1) (sendAll (tok :: p ++ crc16Gen p) s)) := by
  simp only [sendFrame, withReg, Xfer.offset, hbl, hr]

theorem sendFrame_of_none (hr : Mem.readRange s.tb (x.block * bl.toNat) bl.toNat = none) :
    sendFrame tok x s = .fault (.noValue .tb) := by
  simp only [sendFrame, withReg, Xfer.offset, hbl, hr]

/-- The frame of a block is sent, or some byte of the block holds no value (R22, R33). -/
theorem sendFrame_cases : (∃ t, sendFrame tok x s = .next t)
    ∨ ∃ i, i < bl.toNat ∧ Mem.read s.tb (x.block * bl.toNat + i) = none ∧ sendFrame tok x s = .fault (.noValue .tb) := by
  cases hr : Mem.readRange s.tb (x.block * bl.toNat) bl.toNat with
  | some p => exact .inl ⟨_, sendFrame_of_some tok hbl hr⟩
  | none =>
    obtain ⟨i, hi, hnone⟩ := Mem.exists_read_none_of_readRange hr
    exact .inr ⟨i, hi, hnone, sendFrame_of_none tok hbl hr⟩

/-- With a block length a received start token gets its payload (R214). -/
theorem startReceived_of_some : startReceived x s = .next (recvPayload x bl s) := by
  simp only [startReceived, withReg, hbl]

theorem tokenReceived_next (k : Nat) (b : Byte) : ∃ t, tokenReceived x k b s = .next t := by
  unfold tokenReceived
  split
  · exact ⟨_, startReceived_of_some hbl⟩
  · exact ⟨_, rfl⟩

end

/-- The family and the generation are known where step 4 begins (R177). -/
theorem beginStep4_next {s : State} (hc : Classified true true false s) : ∃ t, beginStep4 s = .next t := by
  obtain ⟨hg, hf, -⟩ := hc
  obtain ⟨g, hg⟩ := Option.isSome_iff_exists.1 hg
  obtain ⟨f, hf⟩ := Option.isSome_iff_exists.1 hf
  cases f <;> exact ⟨_, by simp only [beginStep4, withReg, hf, hg]; rfl⟩

theorem beginStep5_next {s : State} (hc : Classified true true false s) : ∃ t, beginStep5 s = .next t := by
  obtain ⟨hg, -⟩ := hc
  obtain ⟨g, hg⟩ := Option.isSome_iff_exists.1 hg
  cases g <;> exact ⟨_, by simp only [beginStep5, withReg, hg]; rfl⟩

theorem beginStep6_next {s : State} (hc : Classified true true true s) : ∃ t, beginStep6 s = .next t := by
  obtain ⟨-, -, hcap⟩ := hc
  obtain ⟨c, hcap⟩ := Option.isSome_iff_exists.1 hcap
  cases c <;> exact ⟨_, by simp only [beginStep6, withReg, hcap]; rfl⟩

/-- The operation's own step goes on, but for a block that TB does not hold. -/
theorem ownStep_next {s : State} {p : Pos} (arg : Word) (hi : Inv s) (hp : s.opState = .busy p) :
    (∃ t, ownStep arg s p = .next t)
    ∨ ∃ x i, p = .writeFrame x ∧ i < s.cfg.blockLenOp.toNat
      ∧ Mem.read s.tb (x.block * s.cfg.blockLenOp.toNat + i) = none ∧ ownStep arg s p = .fault (.noValue .tb) := by
  have hq := hi.pos p hp
  cases p with
  | step4 => exact .inl (beginStep4_next hq.2)
  | step5 => exact .inl (beginStep5_next hq.2)
  | step6 => exact .inl (beginStep6_next hq.2)
  | readToken x k =>
    obtain ⟨⟨hs, -⟩, -⟩ := hq
    exact .inl (tokenReceived_next ((recv_blockLen s).trans (hi.session hs).2.1) k _)
  | writeFrame x =>
    obtain ⟨hs, -⟩ := hq
    obtain hnext | ⟨i, hlt, hnone, hfault⟩ := sendFrame_cases (txStartToken s.cfg x.multi) (x := x) (hi.session hs).2.1
    · exact .inl hnext
    · exact .inr ⟨x, i, rfl, hlt, hnone, hfault⟩
  | reset | ifCond | ocrFamily | appPrefix | appOpCond | opCond | ocrCapacity | setBlockLen | sendStatus | readCmd
  | writeCmd | dataResp | writeBusy | writeVerdict | readStop | readStopBusy | writeStop | writeStopBusy =>
    exact .inl ⟨_, rfl⟩

/-- Settles O53: under the invariant the step is the position's own, and only a frame can lack its bytes. -/
theorem runningOperationNeverStops : Obligations.RunningOperationNeverStops := by
  intro s p hi hu hp
  obtain ⟨arg, harg⟩ := turn_eq_ownStep hi hp
  rw [step_unhurried hu hp, harg]
  exact ownStep_next arg hi hp

/-- Settles O41: the start token's meaning is the frame of the bytes that TB reads as. -/
theorem sentFrame : Obligations.SentFrame := by
  intro s m j n bl hp hbl
  rw [exec_startToken_writeFrame hp]
  constructor
  · intro p hlen hread
    have hr : Mem.readRange s.tb (j * bl.toNat) bl.toNat = some p := by
      rw [← hlen] at hread ⊢
      exact Mem.readRange_of_read s.tb p _ hread
    exact sendFrame_of_some _ hbl hr
  · rintro ⟨i, hi, hnone⟩
    exact sendFrame_of_none _ hbl (Mem.readRange_of_none s.tb _ _ i hi hnone)

/-! ## The fetch -/

/-- A code written to `REQ_OP` is decoded as the byte that holds it (R97, R98). -/
theorem decode_hostOp (c : Config) (op : BitVec 4) : decode c .hostOp [op.setWidth 8] = .ok (decodeHostOp op) := by
  have hhi : (op.setWidth 8).extractLsb' 4 4 = 0 := by revert op; decide
  have hlo : (op.setWidth 8).extractLsb' 0 4 = op := by revert op; decide
  simp [decode, hhi, hlo]

theorem turn_fetchPacket {s : State} {i : Instr} (h : decode s.cfg .packet s.pkt = .ok i) :
    turnOutcome (fetchPacket s) = exec i s := by
  simp only [fetchPacket, h, turnOutcome]

theorem turn_fetchRxToken {x : Xfer} {k : Nat} {s : State} {i : Instr}
    (h : decode s.cfg (.rxToken x.multi) [answer s 0] = .ok i) :
    turnOutcome (fetchRxToken x k s) = exec i (received 1 s) := by
  have hc : (received 1 s).cfg = s.cfg := rfl
  simp only [fetchRxToken, recv_eq, hc, h, turnOutcome]

theorem turn_fetchTxToken {tok : Byte} {s : State} {i : Instr} (h : decode s.cfg .txToken [tok] = .ok i) :
    turnOutcome (fetchTxToken tok s) = exec i s := by
  simp only [fetchTxToken, h, turnOutcome]

theorem turn_fetchDataResp {x : Xfer} {b : Byte} {s : State} {i : Instr} (h : decode s.cfg .dataResp [b] = .ok i) :
    turnOutcome (fetchDataResp x b s) = exec i s := by
  simp only [fetchDataResp, h, turnOutcome]

/-- Settles O50: each clause is the fetch of its position with the item decoded. -/
theorem stepRunsDecoded : Obligations.StepRunsDecoded := by
  intro s i
  refine ⟨fun rest op hs hin hop hd => ?start, fun p hu hp hissue hd => ?packet, fun x k hu hp hd => ?token,
    fun x hu hp hd => ?frame, fun err hu hp hd => ?stop, fun x b hu hp hd => ?verdict⟩
  case start =>
    cases (decode_hostOp s.cfg op).symm.trans hd
    rw [step_eq, fetch_idle hs hin]
    simp only [hostIdle, hop, turnOutcome]
  case packet => rw [step_unhurried hu hp, fetchAt_of_issues hissue, turn_fetchPacket hd]
  case token => exact (step_unhurried hu hp).trans (turn_fetchRxToken hd)
  case frame => exact (step_unhurried hu hp).trans (turn_fetchTxToken hd)
  case stop => exact (step_unhurried hu hp).trans (turn_fetchTxToken hd)
  case verdict => exact (step_unhurried hu hp).trans (turn_fetchDataResp hd)

/-! ## The host's actions -/

/-- While no operation runs, an action that starts none is the step. -/
theorem step_idle_other {s : State} {a : HostAct} {l : List HostAct} {o : Host.Outcome State Fault Refusal}
    (hs : s.opState = .idle) (hin : s.hostIn = a :: l) (ho : hostIdle a { s with hostIn := l } = .other o) :
    step s = o := by
  rw [step_eq, fetch_idle hs hin, ho, turnOutcome]

/-- While an operation runs, an action that does not let the block go on is the step (R310). -/
theorem step_busy_other {s : State} {p : Pos} {a : HostAct} {l : List HostAct} (hp : s.opState = .busy p)
    (hin : s.hostIn = a :: l) (hwait : a ≠ .wait) (hpause : a ≠ .pause) :
    step s = hostBusy a { s with hostIn := l } := by
  have hf : fetch s = .other (hostBusy a { s with hostIn := l }) := by
    unfold fetch
    split <;> simp_all
  rw [step_eq, hf, turnOutcome]

theorem idle_or_busy (s : State) : s.opState = .idle ∨ ∃ p, s.opState = .busy p := by
  cases s.opState with
  | idle => exact .inl rfl
  | busy p => exact .inr ⟨p, rfl⟩

/-- An action that means the same in either `OP_STATE` is the step in every state (R22). -/
theorem step_either {s : State} {a : HostAct} {l : List HostAct} {o : Host.Outcome State Fault Refusal}
    (hin : s.hostIn = a :: l) (hwait : a ≠ .wait) (hpause : a ≠ .pause)
    (hidle : hostIdle a { s with hostIn := l } = .other o) (hbusy : hostBusy a { s with hostIn := l } = o) :
    step s = o := by
  obtain hs | ⟨p, hp⟩ := idle_or_busy s
  · exact step_idle_other hs hin hidle
  · exact (step_busy_other hp hin hwait hpause).trans hbusy

/-- A write to TB inside its offsets, the larger of `2 ^ ADDR_W` and `BLOCK_LEN_OP` (R52, R54). -/
theorem hostWriteTB_eq (o : Nat) (bs : List Byte) (s : State) :
    hostWriteTB o bs s = if o + bs.length ≤ 2 ^ s.cfg.addrW ∨ o + bs.length ≤ s.cfg.blockLenOp.toNat then
      .next { s with tb := Mem.write s.tb o bs } else .fault .outsideTB := by
  simp only [hostWriteTB, tbSize, le_max_iff]

/-- A register read is the fault of a missing value, or goes on with the value (R33). -/
theorem withReg_cases {α : Type} (r : RegName) (v : Option α) (k : α → Host.Outcome State Fault Refusal) :
    (v = none → withReg r v k = .fault (.noValue r)) ∧ ∀ a, v = some a → withReg r v k = k a :=
  ⟨by rintro rfl; rfl, by rintro a rfl; rfl⟩

/-- Settles O21: each action is one arm of the host's, on the state with the action taken away. -/
theorem hostActions : Obligations.HostActions := by
  intro s rest
  refine ⟨fun v hs hin => ?writeOp, fun v hs hin => ?writeAddr, fun v hs hin => ?writeLen, fun o bs hs hin => ?writeTB,
    fun o p hp hin => ?readTBBusy, fun hs hop hin => ?start, fun o hs hin => ?readTB, fun hin => ?readOpState,
    fun hin => ?readKind, fun hin => ?readValue⟩
  case writeOp | writeAddr | writeLen => exact step_idle_other hs hin rfl
  case writeTB => exact (step_idle_other hs hin rfl).trans (hostWriteTB_eq ..)
  case readTBBusy => exact step_busy_other hp hin nofun nofun
  case start => exact step_idle_other hs hin (by simp only [hostIdle, hop])
  case readTB => rw [step_idle_other hs hin rfl]; exact withReg_cases ..
  case readOpState => exact step_either hin nofun nofun rfl rfl
  case readKind => rw [step_either hin nofun nofun rfl rfl]; exact withReg_cases ..
  case readValue => rw [step_either hin nofun nofun rfl rfl]; exact withReg_cases ..

/-! ## The codes and the reset state -/

/-- Settles O13: the codes are the model's tables, read off. -/
theorem registerCodes : Obligations.RegisterCodes :=
  ⟨rfl, rfl, rfl, rfl, rfl, rfl, fun _ => rfl, rfl, rfl⟩

/-- The default configuration meets the constraints of R8, R72 and R92. -/
theorem standard_valid : Config.standard.valid = true := by decide

/-- Settles O51: nothing holds a value at reset and no operation runs, so every clause is of no register (R301). -/
theorem invHoldsAtReset : Obligations.InvHoldsAtReset where
  cfg := standard_valid
  session := nofun
  tb := ⟨.nil, nofun⟩
  operands := ⟨nofun, nofun⟩
  bracket := rfl
  ephemeral _ := ⟨rfl, rfl⟩
  result := ⟨nofun, nofun⟩
  pos := nofun

end Sys2Proof.Machine
end

section
/-! PROOFS. What the steps of `INIT`, of `READ_STATUS` and of a block operation can write (O58, O57), and with it
which steps change `SESSION_VALID` (O56). -/

namespace Sys2Proof.Machine
open Sys2Proof.Claims

/-! ## The moves of `INIT` -/

/-- What a step of `INIT` does to the state after its port events: it goes on with some of the registers of R24-R26
and R29 written, it fails, or it ends with a session (R171-R184). -/
inductive InitMove (s : State) : State → Prop
  | goes (g : Option Generation) (f : Option Family) (c : Option CapClass) (n : NegState) (p : Pos) (pkt : List Byte) :
      InitMove s { s with generation := g, family := f, capClass := c, negState := n, opState := .busy p, pkt := pkt }
  | fails (g : Option Generation) (f : Option Family) (e : ErrorKind) :
      InitMove s (raiseInit e { s with generation := g, family := f })
  | readies : InitMove s (initReady s)

theorem InitMove.raise (e : ErrorKind) (s : State) : InitMove s (raiseInit e s) := .fails s.generation s.family e

theorem step1Reset_move (o : Issued × State) : InitMove o.2 (step1Reset o) := by
  obtain ⟨_ | ⟨r, bs⟩, u⟩ := o
  · exact .raise ..
  · simp only [step1Reset]
    split
    · exact .goes ..
    · exact .raise ..

theorem step2Voltage_move (o : Issued × State) : InitMove o.2 (step2Voltage o) := by
  obtain ⟨_ | ⟨r, bs⟩, u⟩ := o
  · exact .raise ..
  · simp only [step2Voltage]
    split
    · exact .goes ..
    split
    · exact .fails ..
    split
    · exact .fails ..
    · exact .goes ..

theorem step3Family_move (o : Issued × State) : InitMove o.2 (step3Family o) := by
  obtain ⟨_ | ⟨r, bs⟩, u⟩ := o
  · exact .raise ..
  · simp only [step3Family]
    split
    · exact .goes ..
    split
    · exact .goes ..
    · exact .fails ..

theorem beginStep4_move {s t : State} (h : beginStep4 s = .next t) : InitMove s t := by
  obtain ⟨f, -, h⟩ := withReg_eq_next.1 h
  cases f with
  | mmc => cases h; exact .goes ..
  | sd =>
    obtain ⟨g, -, h⟩ := withReg_eq_next.1 h
    cases h
    exact .goes ..

theorem prefixFailed_move (p : Byte) (s : State) : InitMove s (prefixFailed p s) := by
  unfold prefixFailed
  split <;> exact .raise ..

theorem step4Prefix_move (harg : Word) (k : Nat) (o : Issued × State) : InitMove o.2 (step4Prefix harg k o) := by
  obtain ⟨_ | ⟨r, bs⟩, u⟩ := o
  · exact .raise ..
  · simp only [step4Prefix]
    split
    · exact .goes ..
    · exact prefixFailed_move ..

theorem step4Target_move (harg : Word) (k : Nat) (r : Byte) (s : State) : InitMove s (step4Target harg k r s) := by
  unfold step4Target
  split_ifs
  · exact .raise ..
  all_goals exact .goes ..

theorem step4AppOpCond_move (harg : Word) (k : Nat) (o : Issued × State) : InitMove o.2 (step4AppOpCond harg k o) := by
  obtain ⟨_ | ⟨r, bs⟩, u⟩ := o
  · exact .raise ..
  · exact step4Target_move ..

theorem step4Attempt_move (harg : Word) (k : Nat) (o : AppIssued × State) : InitMove o.2 (step4Attempt harg k o) := by
  obtain ⟨_ | p | r, u⟩ := o
  · exact .raise ..
  · exact prefixFailed_move ..
  · exact step4Target_move ..

theorem step4Fallback_move (k : Nat) (o : Issued × State) : InitMove o.2 (step4Fallback k o) := by
  obtain ⟨_ | ⟨r, bs⟩, u⟩ := o
  · exact .raise ..
  · simp only [step4Fallback]
    split_ifs
    · exact .raise ..
    · exact .goes ..
    · exact .goes ..
    · exact .raise ..

theorem beginStep5_move {s t : State} (h : beginStep5 s = .next t) : InitMove s t := by
  obtain ⟨g, -, h⟩ := withReg_eq_next.1 h
  cases g <;> cases h <;> exact .goes ..

theorem step5Ocr_move (k : Nat) (o : Issued × State) : InitMove o.2 (step5Ocr k o) := by
  obtain ⟨_ | ⟨r, bs⟩, u⟩ := o
  · exact .raise ..
  · simp only [step5Ocr]
    split_ifs
    · exact .raise ..
    · exact .goes ..
    · exact .goes ..
    · exact .raise ..

theorem beginStep6_move {s t : State} (h : beginStep6 s = .next t) : InitMove s t := by
  obtain ⟨c, -, h⟩ := withReg_eq_next.1 h
  cases c with
  | standard => cases h; exact .goes ..
  | high => cases h; exact .readies

theorem step6SetLen_move (o : Issued × State) : InitMove o.2 (step6SetLen o) := by
  obtain ⟨_ | ⟨r, bs⟩, u⟩ := o
  · exact .raise ..
  · simp only [step6SetLen]
    split
    · exact .readies
    · exact .raise ..

/-- At a position of `INIT` the own step is port events and a move. -/
theorem ownStep_initMove {p : Pos} {s t : State} {arg : Word} (hp : p.inInit = true) (h : ownStep arg s p = .next t) :
    ∃ u, PortOnly s u ∧ InitMove u t := by
  cases p with
  | sendStatus | readCmd | readToken | writeCmd | writeFrame | dataResp | writeBusy | writeVerdict | readStop
  | readStopBusy | writeStop | writeStopBusy => cases hp
  | step4 => exact ⟨s, .refl s, beginStep4_move h⟩
  | step5 => exact ⟨s, .refl s, beginStep5_move h⟩
  | step6 => exact ⟨s, .refl s, beginStep6_move h⟩
  | reset => cases h; exact ⟨_, .issue .., step1Reset_move _⟩
  | ifCond => cases h; exact ⟨_, .issue .., step2Voltage_move _⟩
  | ocrFamily => cases h; exact ⟨_, .issue .., step3Family_move _⟩
  | appPrefix => cases h; exact ⟨_, .issue .., step4Prefix_move ..⟩
  | appOpCond => cases h; exact ⟨_, .issue .., step4AppOpCond_move ..⟩
  | opCond => cases h; exact ⟨_, .issue .., step4Fallback_move ..⟩
  | ocrCapacity => cases h; exact ⟨_, .issue .., step5Ocr_move ..⟩
  | setBlockLen => cases h; exact ⟨_, .issue .., step6SetLen_move _⟩

/-! ## A turn of `INIT` or `READ_STATUS` in every state -/

/-- An instruction out of its place is refused, whatever else the state holds (R96, R130, R310). -/
theorem exec_refused_of_not_place {i : Instr} {p : Pos} (h : ¬ Place i p) :
    ∃ r, ∀ s : State, s.opState = .busy p → exec i s = .refused r := by
  cases i with
  | reserved0 | reservedA | eraseOutOfScope | getSizeOutOfScope | reservedD | reservedE | reservedF =>
    exact ⟨_, fun _ _ => rfl⟩
  | init | readBlock | writeBlock | readBlocks | writeBlocks | readStatus | getIsMmc | getBlockLen | getIsHc =>
    refine ⟨.startWhileBusy, fun s hs => ?_⟩
    simp only [exec, execInit, execReadBlock, execWriteBlock, execReadBlocks, execWriteBlocks, execReadStatus,
      execGetIsMmc, execGetBlockLen, execGetIsHc, whenIdle, hs]
  | cmdReadOcr | tokStartSingle =>
    refine ⟨.outOfPlace, fun s hs => ?_⟩
    simp only [exec, execCmdReadOcr, execTokStartSingle]
    split
    · next hq => cases hs.symm.trans hq; exact absurd (by trivial) h
    · next hq => cases hs.symm.trans hq; exact absurd (by trivial) h
    · rfl
  | cmdReset | cmdSendOpCond | cmdIfCond | cmdStopTransmission | cmdSendStatus | cmdSetBlockLen | cmdReadSingle
  | cmdReadMulti | cmdWriteSingle | cmdWriteMulti | cmdAppOpCond | cmdAppPrefix | acmd41 | tokStartMultiWr
  | tokStartMultiRd | tokStopMultiWr | errorToken | dataRespAccepted | dataRespCrcRejected | dataRespWriteRejected =>
    refine ⟨.outOfPlace, fun s hs => ?_⟩
    simp only [exec, execCmdReset, execCmdSendOpCond, execCmdIfCond, execCmdStopTransmission, execCmdSendStatus,
      execCmdSetBlockLen, execCmdReadSingle, execCmdReadMulti, execCmdWriteSingle, execCmdWriteMulti,
      execCmdAppOpCond, execCmdAppPrefix, execAcmd41, execTokStartMultiWr, execTokStartMultiRd, execTokStopMultiWr,
      execErrorToken, execDataRespAccepted, execDataRespCrcRejected, execDataRespWriteRejected]
    split
    · next hq => cases hs.symm.trans hq; exact absurd (by trivial) h
    · rfl

/-- What is in its place inside `INIT` and `READ_STATUS`: the position's command, or the pair of R153. -/
theorem posCmd_of_place {i : Instr} {p : Pos} (hp : p.inInit = true ∨ p = .sendStatus) (h : Place i p) :
    (∃ k arg crc, posCmd p = some k ∧ i = .ofCmd k arg crc)
    ∨ ∃ harg k arg crc, p = .appPrefix harg k ∧ i = .acmd41 arg crc := by
  unfold Place at h
  split at h
  case h_6 => exact .inr ⟨_, _, _, _, rfl, rfl⟩
  case h_1 | h_2 | h_3 | h_4 | h_5 | h_7 | h_8 | h_9 | h_10 => exact .inl ⟨_, _, _, rfl, rfl⟩
  all_goals simp [Pos.inInit] at hp h

/-- What a turn inside `INIT` or `READ_STATUS` can be, as a function of the state: a refusal, the position's own
step, or a whole attempt of the SD loop (R136, R153). -/
inductive InitTurn (p : Pos) : (State → Host.Outcome State Fault Refusal) → Prop
  | refuses (r : Refusal) : InitTurn p fun _ => .refused r
  | own (arg : Word) : InitTurn p fun s => ownStep arg s p
  | pair (harg : Word) (k : Nat) (arg : Word) (hp : p = .appPrefix harg k) :
      InitTurn p fun s => .next (step4Attempt harg k (issueApp .appOpCond arg s))

theorem exec_initTurn {p : Pos} (hp : p.inInit = true ∨ p = .sendStatus) (i : Instr) :
    ∃ f, InitTurn p f ∧ ∀ s : State, s.opState = .busy p → exec i s = f s := by
  by_cases hpl : Place i p
  · obtain ⟨k, arg, crc, hk, rfl⟩ | ⟨harg, k, arg, crc, rfl, rfl⟩ := posCmd_of_place hp hpl
    · exact ⟨_, .own arg, fun s hs => exec_posCmd hs hk arg crc⟩
    · exact ⟨_, .pair harg k arg rfl, fun s hs => by simp only [exec, execAcmd41, hs]⟩
  · obtain ⟨r, hr⟩ := exec_refused_of_not_place hpl
    exact ⟨_, .refuses r, hr⟩

/-- Inside `INIT` and `READ_STATUS` the turn is fixed by the configuration and `PKT`, in every state. -/
theorem turn_init {p : Pos} (hp : p.inInit = true ∨ p = .sendStatus) (s : State) :
    ∃ f, InitTurn p f ∧ ∀ u : State, u.opState = .busy p → u.cfg = s.cfg → u.pkt = s.pkt →
      turnOutcome (fetchAt p u) = f u := by
  cases hk : posCmd p with
  | none =>
    refine ⟨_, .own 0, fun u _ _ _ => ?_⟩
    cases p with
    | step4 | step5 | step6 => rfl
    | readToken | writeFrame | dataResp | writeBusy | writeVerdict | readStopBusy | writeStop | writeStopBusy =>
      rcases hp with hp | hp <;> cases hp
    | reset | ifCond | ocrFamily | appPrefix | appOpCond | opCond | ocrCapacity | setBlockLen | sendStatus | readCmd
    | writeCmd | readStop => cases hk
  | some k =>
    cases hd : decode s.cfg .packet s.pkt with
    | error e =>
      refine ⟨_, .refuses (.badPacket e), fun u _ hcfg hpkt => ?_⟩
      simp only [fetchAt_of_issues (issues_of_posCmd hk), fetchPacket, hcfg, hpkt, hd, turnOutcome]
    | ok i =>
      obtain ⟨f, hf, hexec⟩ := exec_initTurn hp i
      refine ⟨f, hf, fun u hu hcfg hpkt => ?_⟩
      rw [← hexec u hu, fetchAt_of_issues (issues_of_posCmd hk), turn_fetchPacket (by rw [hcfg, hpkt, hd])]

/-! ## What `INIT` and `READ_STATUS` never write -/

/-- A turn inside `INIT` is port events and a move, in every state. -/
theorem turn_initMove {p : Pos} {s t : State} (hp : p.inInit = true) (hs : s.opState = .busy p)
    (h : turnOutcome (fetchAt p s) = .next t) : ∃ u, PortOnly s u ∧ InitMove u t := by
  obtain ⟨f, hf, hturn⟩ := turn_init (.inl hp) s
  rw [hturn s hs rfl rfl] at h
  cases hf with
  | refuses r => cases h
  | own arg => exact ownStep_initMove hp h
  | pair harg k arg => cases h; exact ⟨_, .issueApp .., step4Attempt_move ..⟩

/-- A turn of `READ_STATUS` is its command, in every state. -/
theorem turn_sendStatus {s t : State} (hs : s.opState = .busy .sendStatus)
    (h : turnOutcome (fetchAt .sendStatus s) = .next t) : ∃ arg, t = finishReadStatus (issue .sendStatus arg s) := by
  obtain ⟨f, hf, hturn⟩ := turn_init (.inr rfl) s
  rw [hturn s hs rfl rfl] at h
  cases hf with
  | refuses r => cases h
  | own arg => cases h; exact ⟨arg, rfl⟩
  | pair harg k arg hp => cases hp

/-- The request registers, TB and the parameters, which `INIT` and `READ_STATUS` leave alone (R37). -/
def SameRequest (s t : State) : Prop :=
  t.tb = s.tb ∧ t.reqOp = s.reqOp ∧ t.reqAddr = s.reqAddr ∧ t.reqLen = s.reqLen ∧ t.cfg = s.cfg

/-- The session registers with CLOCK_MODE and NEG_STATE, which `READ_STATUS` leaves alone (R160). -/
def SameSession (s t : State) : Prop :=
  t.sessionValid = s.sessionValid ∧ t.family = s.family ∧ t.generation = s.generation ∧ t.capClass = s.capClass
    ∧ t.blockLen = s.blockLen ∧ t.clockMode = s.clockMode ∧ t.negState = s.negState

theorem HostOnly.sameRequest {s t : State} (h : HostOnly s t) : SameRequest s t := by
  obtain ⟨_, _, _, rfl⟩ := h
  exact ⟨rfl, rfl, rfl, rfl, rfl⟩

theorem HostOnly.sameSession {s t : State} (h : HostOnly s t) : SameSession s t := by
  obtain ⟨_, _, _, rfl⟩ := h
  exact ⟨rfl, rfl, rfl, rfl, rfl, rfl, rfl⟩

theorem HostOnly.resultValue {s t : State} (h : HostOnly s t) : t.resultValue = s.resultValue := by
  obtain ⟨_, _, _, rfl⟩ := h
  rfl

theorem PortOnly.sameRequest {s t : State} (h : PortOnly s t) : SameRequest s t :=
  ⟨h.tb, h.reqOp, h.reqAddr, h.reqLen, h.cfg⟩

theorem PortOnly.sameSession {s t : State} (h : PortOnly s t) : SameSession s t :=
  ⟨h.sessionValid, h.family, h.generation, h.capClass, h.blockLen, h.clockMode, h.negState⟩

theorem SameRequest.trans {s t u : State} (h : SameRequest s t) (h' : SameRequest t u) : SameRequest s u := by
  simp_all [SameRequest]

theorem SameSession.trans {s t u : State} (h : SameSession s t) (h' : SameSession t u) : SameSession s u := by
  simp_all [SameSession]

theorem InitMove.sameRequest {s t : State} (h : InitMove s t) : SameRequest s t := by
  cases h <;> exact ⟨rfl, rfl, rfl, rfl, rfl⟩

theorem InitMove.resultValue {s t : State} (h : InitMove s t) : t.resultValue = s.resultValue := by
  cases h <;> rfl

theorem finishReadStatus_sameRequest (o : Issued × State) : SameRequest o.2 (finishReadStatus o) := by
  obtain ⟨_ | ⟨r, bs⟩, u⟩ := o <;> exact ⟨rfl, rfl, rfl, rfl, rfl⟩

theorem finishReadStatus_sameSession (o : Issued × State) : SameSession o.2 (finishReadStatus o) := by
  obtain ⟨_ | ⟨r, bs⟩, u⟩ := o <;> exact ⟨rfl, rfl, rfl, rfl, rfl, rfl, rfl⟩

/-- A step inside `INIT` leaves what R37 says. -/
theorem step_inInit_leaves {s t : State} {p : Pos} (hp : p.inInit = true) (hs : s.opState = .busy p)
    (ht : step s = .next t) : SameRequest s t ∧ t.resultValue = s.resultValue := by
  obtain hh | ⟨l, hturn⟩ := step_busy_cases hs ht
  · exact ⟨hh.sameRequest, hh.resultValue⟩
  · obtain ⟨u, hport, hmove⟩ := turn_initMove (s := { s with hostIn := l }) hp hs hturn
    exact ⟨(HostOnly.hostIn s l).sameRequest.trans (hport.sameRequest.trans hmove.sameRequest),
      hmove.resultValue.trans hport.resultValue⟩

/-- A step inside `READ_STATUS` leaves what R37 and R160 say. -/
theorem step_sendStatus_leaves {s t : State} (hs : s.opState = .busy .sendStatus) (ht : step s = .next t) :
    SameRequest s t ∧ SameSession s t := by
  obtain hh | ⟨l, hturn⟩ := step_busy_cases hs ht
  · exact ⟨hh.sameRequest, hh.sameSession⟩
  · obtain ⟨arg, rfl⟩ := turn_sendStatus (s := { s with hostIn := l }) hs hturn
    have hh := HostOnly.hostIn s l
    have hport := PortOnly.issue .sendStatus arg { s with hostIn := l }
    exact ⟨hh.sameRequest.trans (hport.sameRequest.trans (finishReadStatus_sameRequest _)),
      hh.sameSession.trans (hport.sameSession.trans (finishReadStatus_sameSession _))⟩

/-- Settles O58: the frame of `INIT`'s moves and of the end of `READ_STATUS`, in every state. -/
theorem negotiationAndStatusLeave : Obligations.NegotiationAndStatusLeave := by
  intro s t p hs ht
  refine ⟨?request, fun hp => (step_inInit_leaves hp hs ht).2, ?status⟩
  case request =>
    rintro (hp | rfl)
    · exact (step_inInit_leaves hp hs ht).1
    · exact (step_sendStatus_leaves hs ht).1
  case status =>
    rintro rfl
    exact (step_sendStatus_leaves hs ht).2

/-! ## The moves of a block operation -/

/-- What a step of a block operation does to the state after its port events and its write to TB: it waits, it goes
on, or it ends (R210-R235). -/
inductive BlockMove (s : State) : State → Prop
  | stays : BlockMove s s
  | goes (p : Pos) (pkt : List Byte) : BlockMove s { s with opState := .busy p, pkt := pkt }
  | ends (r : Option ErrorKind) : BlockMove s (endOp .blockIO r s)

theorem readNext_move (x : Xfer) (s : State) : BlockMove s (readNext x s) := by
  unfold readNext
  split_ifs
  · exact .goes ..
  · exact .goes ..
  · exact .ends _

theorem readFail_move (x : Xfer) (e : ErrorKind) (s : State) : BlockMove s (readFail x e s) := by
  unfold readFail
  split
  · exact .goes ..
  · exact .ends _

theorem writeNext_move (x : Xfer) (s : State) : BlockMove s (writeNext x s) := by
  unfold writeNext
  split_ifs
  · exact .goes ..
  · exact .goes ..
  · exact .ends _

theorem writeFail_move (x : Xfer) (e : ErrorKind) (s : State) : BlockMove s (writeFail x e s) := by
  unfold writeFail
  split
  · exact .goes ..
  · exact .ends _

theorem blockCmdResp_move {go : State → State} (hgo : ∀ s, BlockMove s (go s)) (o : Issued × State) :
    BlockMove o.2 (blockCmdResp go o) := by
  obtain ⟨_ | ⟨r, bs⟩, u⟩ := o
  · exact .ends (some .responseTimeout)
  · simp only [blockCmdResp]
    split
    · exact hgo u
    · exact .ends _

theorem readStopIssued_move (err : Option ErrorKind) (o : Issued × State) : BlockMove o.2 (readStopIssued err o) := by
  obtain ⟨_ | ⟨r, bs⟩, u⟩ := o <;> exact .goes ..

theorem tokenSkipped_move (x : Xfer) (k : Nat) (s : State) : BlockMove s (tokenSkipped x k s) := by
  unfold tokenSkipped
  split
  · exact .goes ..
  · exact readFail_move ..

theorem pollDataResp_move (x : Xfer) (k : Nat) (s : State) : BlockMove (recv s).2 (pollDataResp x k s) := by
  unfold pollDataResp
  dsimp only
  split_ifs
  · exact .goes ..
  · exact .goes ..
  · exact writeFail_move ..

theorem busyWait_move {done : State → State} (hdone : ∀ s, BlockMove s (done s)) (s : State) :
    BlockMove (recv s).2 (busyWait done s) := by
  unfold busyWait
  dsimp only
  split
  · exact hdone _
  · exact .stays

theorem verdict_move (x : Xfer) (b : Byte) (s : State) : BlockMove s (verdict x b s) := by
  unfold verdict
  split_ifs
  · exact writeNext_move ..
  all_goals exact writeFail_move ..

/-- The state in which a received block's CRC16 is checked (R214): the port's events, and the bytes in TB. -/
theorem recvPayload_move (x : Xfer) (bl : Word) (s : State) :
    ∃ u bs, PortOnly s u ∧ bs.length = bl.toNat
      ∧ BlockMove { u with tb := Mem.write u.tb (x.offset bl) bs } (recvPayload x bl s) := by
  refine ⟨(recv (recv (recvN bl.toNat s).2).2).2, (recvN bl.toNat s).1,
    ((PortOnly.recvN _ s).trans (.recv _)).trans (.recv _), recvN_length .., ?_⟩
  unfold recvPayload
  dsimp only
  split
  · exact readNext_move ..
  · exact readFail_move ..

/-- The state before a block operation's move: the port's events, and at a token poll the bytes of the block
received (R37, R52). -/
def BlockInput (p : Pos) (s u : State) : Prop :=
  PortOnly s u ∨ ∃ x k bl bs v, p = .readToken x k ∧ s.blockLen = some bl ∧ bs.length = bl.toNat ∧ PortOnly s v
    ∧ u = { v with tb := Mem.write v.tb (x.offset bl) bs }

theorem tokenReceived_move {x : Xfer} {k : Nat} {b : Byte} {s t : State} (h : tokenReceived x k b s = .next t) :
    ∃ u, BlockInput (.readToken x k) s u ∧ BlockMove u t := by
  unfold tokenReceived at h
  split at h
  · obtain ⟨bl, hbl, h⟩ := withReg_eq_next.1 h
    cases h
    obtain ⟨u, bs, hport, hlen, hmove⟩ := recvPayload_move x bl s
    exact ⟨_, .inr ⟨x, k, bl, bs, u, rfl, hbl, hlen, hport, rfl⟩, hmove⟩
  · cases h
    refine ⟨s, .inl (.refl s), ?_⟩
    split
    · exact readFail_move ..
    · exact tokenSkipped_move ..

theorem BlockInput.of_port {p : Pos} {s u v : State} (h : PortOnly s u) (hv : BlockInput p u v) : BlockInput p s v := by
  obtain hv | ⟨x, k, bl, bs, w, hp, hbl, hlen, hw, rfl⟩ := hv
  · exact .inl (h.trans hv)
  · exact .inr ⟨x, k, bl, bs, w, hp, h.blockLen.symm.trans hbl, hlen, h.trans hw, rfl⟩

theorem sendFrame_move {tok : Byte} {x : Xfer} {s t : State} (h : sendFrame tok x s = .next t) :
    ∃ u, PortOnly s u ∧ BlockMove u t := by
  obtain ⟨bl, -, h⟩ := withReg_eq_next.1 h
  obtain ⟨p, -, h⟩ := withReg_eq_next.1 h
  cases h
  exact ⟨_, .sendAll _ s, .goes ..⟩

/-- At a position of a block operation the own step is its input and a move. -/
theorem ownStep_blockMove {p : Pos} {s t : State} {arg : Word} (hp : p.inRead = true ∨ p.inWrite = true)
    (h : ownStep arg s p = .next t) : ∃ u, BlockInput p s u ∧ BlockMove u t := by
  cases p with
  | reset | ifCond | ocrFamily | step4 | appPrefix | appOpCond | opCond | step5 | ocrCapacity | step6 | setBlockLen
  | sendStatus => rcases hp with hp | hp <;> cases hp
  | readCmd x => cases h; exact ⟨_, .inl (.issue ..), blockCmdResp_move (readNext_move x) _⟩
  | readToken x k =>
    obtain ⟨u, hu, hmove⟩ := tokenReceived_move h
    exact ⟨u, hu.of_port (.recv s), hmove⟩
  | writeCmd x => cases h; exact ⟨_, .inl (.issue ..), blockCmdResp_move (writeNext_move x) _⟩
  | writeFrame x =>
    obtain ⟨u, hport, hmove⟩ := sendFrame_move h
    exact ⟨u, .inl hport, hmove⟩
  | dataResp x k => cases h; exact ⟨_, .inl (.recv s), pollDataResp_move ..⟩
  | writeBusy x b => cases h; exact ⟨_, .inl (.recv s), busyWait_move (fun _ => .goes ..) s⟩
  | writeVerdict x b => cases h; exact ⟨_, .inl (.refl s), verdict_move ..⟩
  | readStop err => cases h; exact ⟨_, .inl (.issue ..), readStopIssued_move ..⟩
  | readStopBusy err | writeStopBusy err =>
    cases h; exact ⟨_, .inl (.recv s), busyWait_move (fun _ => .ends err) s⟩
  | writeStop err => cases h; exact ⟨_, .inl (.sendAll _ s), .goes ..⟩

/-! ## What block I/O never writes -/

/-- The registers a block operation leaves alone (R37). -/
def SameOutsideBlockIO (s t : State) : Prop :=
  t.family = s.family ∧ t.generation = s.generation ∧ t.capClass = s.capClass ∧ t.blockLen = s.blockLen
    ∧ t.clockMode = s.clockMode ∧ t.negState = s.negState ∧ t.resultValue = s.resultValue
    ∧ t.reqOp = s.reqOp ∧ t.reqAddr = s.reqAddr ∧ t.reqLen = s.reqLen ∧ t.cfg = s.cfg

theorem SameOutsideBlockIO.trans {s t u : State} (h : SameOutsideBlockIO s t) (h' : SameOutsideBlockIO t u) :
    SameOutsideBlockIO s u := by
  simp_all [SameOutsideBlockIO]

theorem HostOnly.sameOutsideBlockIO {s t : State} (h : HostOnly s t) : SameOutsideBlockIO s t := by
  obtain ⟨_, _, _, rfl⟩ := h
  exact ⟨rfl, rfl, rfl, rfl, rfl, rfl, rfl, rfl, rfl, rfl, rfl⟩

theorem PortOnly.sameOutsideBlockIO {s t : State} (h : PortOnly s t) : SameOutsideBlockIO s t :=
  ⟨h.family, h.generation, h.capClass, h.blockLen, h.clockMode, h.negState, h.resultValue, h.reqOp, h.reqAddr,
    h.reqLen, h.cfg⟩

theorem BlockInput.sameOutsideBlockIO {p : Pos} {s u : State} (h : BlockInput p s u) : SameOutsideBlockIO s u := by
  obtain hu | ⟨_, _, _, _, v, -, -, -, hv, rfl⟩ := h
  · exact hu.sameOutsideBlockIO
  · exact hv.sameOutsideBlockIO

theorem BlockMove.sameOutsideBlockIO {s t : State} (h : BlockMove s t) : SameOutsideBlockIO s t := by
  cases h with
  | stays | goes => exact ⟨rfl, rfl, rfl, rfl, rfl, rfl, rfl, rfl, rfl, rfl, rfl⟩
  | ends r => cases r <;> exact ⟨rfl, rfl, rfl, rfl, rfl, rfl, rfl, rfl, rfl, rfl, rfl⟩

theorem BlockMove.tb {s t : State} (h : BlockMove s t) : t.tb = s.tb := by
  cases h with
  | stays | goes => rfl
  | ends r => exact endOp_tb ..

/-- Only the bytes of the block received are written (R52). -/
theorem BlockInput.read_tb {p : Pos} {s u : State} {bl : Word} {a : Nat} (h : BlockInput p s u)
    (ha : ∀ x k, p = .readToken x k →
      s.blockLen = some bl ∧ (a < x.block * bl.toNat ∨ (x.block + 1) * bl.toNat ≤ a)) :
    Mem.read u.tb a = Mem.read s.tb a := by
  obtain hu | ⟨x, k, bl', bs, v, hp, hbl', hlen, hv, rfl⟩ := h
  · rw [hu.tb]
  · obtain ⟨hbl, ha⟩ := ha x k hp
    obtain rfl := Option.some.inj (hbl.symm.trans hbl')
    rw [Nat.succ_mul] at ha
    rw [Mem.read_write, Xfer.offset, hlen, if_neg (by omega), hv.tb]

/-- A token poll happens in a session, whose block length is `BLOCK_LEN_OP` (R38 a). -/
theorem Inv.blockLen_of_readToken {s : State} {x : Xfer} {k : Nat} (h : Inv s)
    (hp : s.opState = .busy (.readToken x k)) : s.blockLen = some s.cfg.blockLenOp := by
  obtain ⟨⟨hs, -⟩, -⟩ := h.pos _ hp
  exact (h.session hs).2.1

/-- Under the invariant a step of a running block operation is a host action, or its input and a move. -/
theorem step_block_cases {s t : State} {p : Pos} (hi : Inv s) (hs : s.opState = .busy p)
    (hp : p.inRead = true ∨ p.inWrite = true) (ht : step s = .next t) :
    HostOnly s t ∨ ∃ l u, BlockInput p { s with hostIn := l } u ∧ BlockMove u t := by
  obtain hh | ⟨l, hturn⟩ := step_busy_cases hs ht
  · exact .inl hh
  · obtain ⟨arg, harg⟩ := turn_eq_ownStep (hi.hostIn l) hs
    exact .inr ⟨l, ownStep_blockMove hp (harg.symm.trans hturn)⟩

/-- Settles O57: no move of a block operation writes those registers, and its input writes one block of TB. -/
theorem blockIOLeaves : Obligations.BlockIOLeaves := by
  intro s t p hi hs hp ht
  suffices h : SameOutsideBlockIO s t ∧ ∀ a, (∀ x k, p = .readToken x k →
      a < x.block * s.cfg.blockLenOp.toNat ∨ (x.block + 1) * s.cfg.blockLenOp.toNat ≤ a) →
      Mem.read t.tb a = Mem.read s.tb a by
    obtain ⟨⟨h1, h2, h3, h4, h5, h6, h7, h8, h9, h10, h11⟩, htb⟩ := h
    exact ⟨h1, h2, h3, h4, h5, h6, h7, h8, h9, h10, h11, htb⟩
  obtain hh | ⟨l, u, hu, hmove⟩ := step_block_cases hi hs hp ht
  · exact ⟨hh.sameOutsideBlockIO, fun a _ => by rw [hh.sameRequest.1]⟩
  · refine ⟨(HostOnly.hostIn s l).sameOutsideBlockIO.trans (hu.sameOutsideBlockIO.trans hmove.sameOutsideBlockIO),
      fun a ha => ?_⟩
    rw [hmove.tb]
    exact hu.read_tb fun x k hx => ⟨hi.blockLen_of_readToken (hx ▸ hs), ha x k hx⟩

/-! ## Which steps change `SESSION_VALID` -/

/-- What a step does to `SESSION_VALID`, with the step that does it. -/
inductive SessionStep (s t : State) : Prop
  | same (h : t.sessionValid = s.sessionValid)
  | ready (h : t.sessionValid = true) (p : Pos) (hs : s.opState = .busy p) (hp : p.inInit = true)
      (ht : t.opState = .idle ∧ t.negState = .ready ∧ t.resultKind = some 0)
  | started (h : t.sessionValid = false) (rest : List HostAct) (hs : s.opState = .idle)
      (hin : s.hostIn = .start :: rest) (hop : s.reqOp = some 1) (ht : t.opState = .busy .reset)
  | failed (h : t.sessionValid = false) (p : Pos) (hs : s.opState = .busy p)
      (hp : p.inRead = true ∨ p.inWrite = true) (ht : t.opState = .idle ∧ t.resultKind ≠ some 0)

theorem HostOnly.sessionValid {s t : State} (h : HostOnly s t) : t.sessionValid = s.sessionValid := by
  obtain ⟨_, _, _, rfl⟩ := h
  rfl

theorem HostWrote.sessionValid {s t : State} (h : HostWrote s t) : t.sessionValid = s.sessionValid := by
  cases h <;> rfl

theorem BlockInput.sessionValid {p : Pos} {s u : State} (h : BlockInput p s u) : u.sessionValid = s.sessionValid := by
  obtain hu | ⟨_, _, _, _, v, -, -, -, hv, rfl⟩ := h
  · exact hu.sessionValid
  · exact hv.sessionValid

/-- Of the moves of `INIT` only the last writes the session. -/
theorem InitMove.sessionValid {s t : State} (h : InitMove s t) :
    t.sessionValid = s.sessionValid
    ∨ t.sessionValid = true ∧ t.opState = .idle ∧ t.negState = .ready ∧ t.resultKind = some 0 := by
  cases h with
  | goes | fails => exact .inl rfl
  | readies => exact .inr ⟨rfl, rfl, rfl, rfl⟩

/-- No error kind has the code of success (R32, R261). -/
theorem ErrorKind.code_ne_zero (e : ErrorKind) : e.code ≠ 0 := by
  cases e <;> decide

/-- Of the moves of a block operation only an end with an error writes the session (R212). -/
theorem BlockMove.sessionValid {s t : State} (h : BlockMove s t) :
    t.sessionValid = s.sessionValid
    ∨ t.sessionValid = false ∧ t.opState = .idle ∧ t.resultKind ≠ some 0 := by
  cases h with
  | stays | goes => exact .inl rfl
  | ends r =>
    cases r with
    | none => exact .inl rfl
    | some e => exact .inr ⟨rfl, rfl, by simpa [resultCode] using e.code_ne_zero⟩

/-- Of the starts only `INIT`'s writes the session (R171). -/
theorem Started.sessionValid {s t : State} {op : BitVec 4} (h : Started s op t) :
    t.sessionValid = s.sessionValid ∨ t.sessionValid = false ∧ op = 1 ∧ t.opState = .busy .reset := by
  cases h with
  | init => exact .inr ⟨rfl, rfl, rfl⟩
  | readStatus | accessor | failed | read | write => exact .inl rfl

/-- Every position is one of `INIT`, `READ_STATUS`, a read or a write (R12). -/
theorem Pos.classes (p : Pos) :
    p.inInit = true ∨ p = .sendStatus ∨ p.inRead = true ∨ p.inWrite = true := by
  cases p <;> simp [Pos.inInit, Pos.inRead, Pos.inWrite]

theorem sessionStep_of_idle {s t : State} (hs : s.opState = .idle) (ht : step s = .next t) : SessionStep s t := by
  obtain hh | hw | ⟨l, op, hin, hop, hexec⟩ := step_idle_cases hs ht
  · exact .same hh.sessionValid
  · exact .same hw.sessionValid
  · obtain hsame | ⟨hfalse, rfl, hreset⟩ := (exec_hostOp_cases hexec).sessionValid
    · exact .same hsame
    · exact .started hfalse l hs hin hop hreset

theorem sessionStep_of_busy {s t : State} {p : Pos} (hi : Inv s) (hs : s.opState = .busy p) (ht : step s = .next t) :
    SessionStep s t := by
  obtain hinit | rfl | hblock := p.classes
  · obtain hh | ⟨l, hturn⟩ := step_busy_cases hs ht
    · exact .same hh.sessionValid
    · obtain ⟨u, hport, hmove⟩ := turn_initMove (s := { s with hostIn := l }) hinit hs hturn
      obtain hsame | ⟨htrue, hend⟩ := hmove.sessionValid
      · exact .same (hsame.trans hport.sessionValid)
      · exact .ready htrue p hs hinit hend
  · exact .same (step_sendStatus_leaves hs ht).2.1
  · obtain hh | ⟨l, u, hu, hmove⟩ := step_block_cases hi hs hblock ht
    · exact .same hh.sessionValid
    · obtain hsame | ⟨hfalse, hend⟩ := hmove.sessionValid
      · exact .same (hsame.trans hu.sessionValid)
      · exact .failed hfalse p hs hblock hend

theorem sessionStep_of_step {s t : State} (hi : Inv s) (ht : step s = .next t) : SessionStep s t := by
  obtain hs | ⟨p, hs⟩ := idle_or_busy s
  · exact sessionStep_of_idle hs ht
  · exact sessionStep_of_busy hi hs ht

/-- Outside a session a block operation is refused (R210). -/
theorem blockStart_of_noSession {multi : Bool} {s : State} {k : Word → Xfer → State} (h : s.sessionValid = false) :
    blockStart multi s k = .refused .noSession := by
  simp only [blockStart, h, if_true]

/-- Settles O56: a step that changes the session is one of three. -/
theorem sessionChanges : Obligations.SessionChanges := by
  refine ⟨fun s t hi ht => ⟨fun hfalse htrue => ?becomes, fun htrue hfalse => ?ceases⟩, fun s hs hv i hi => ?refused⟩
  case becomes =>
    cases sessionStep_of_step hi ht with
    | same h => simp [h, hfalse] at htrue
    | ready _ p hs hp h => exact ⟨p, hs, hp, h⟩
    | started h | failed h => simp [h] at htrue
  case ceases =>
    cases sessionStep_of_step hi ht with
    | same h => simp [h, htrue] at hfalse
    | ready h => simp [h] at hfalse
    | started _ rest hs hin hop h => exact .inl ⟨rest, hs, hin, hop, h⟩
    | failed _ p hs hp h => exact .inr ⟨p, hs, hp, h⟩
  case refused =>
    obtain ⟨multi, k, hk⟩ := exec_blockOps_eq_blockStart hs hi
    rw [hk, blockStart_of_noSession hv]

end Sys2Proof.Machine
end

section
/-! PROOFS. What the request operands and TB cannot change (O59): the steps of `INIT` and `READ_STATUS`, and the
starts of those and of the accessors, commute with replacing them. -/

namespace Sys2Proof.Machine
open Sys2Proof.Claims

/-- What `Issue` does after its response poll (R133): the rest of the response, read by count. -/
def issueRest (k : Cmd) : Option Byte × State → Issued × State
  | (none, s) => (.timeout, s)
  | (some b, s) =>
    (.response b (recvN (respLen k - 1) s).1,
      { (recvN (respLen k - 1) s).2 with resp := b :: (recvN (respLen k - 1) s).1 })

theorem issue_eq (k : Cmd) (arg : Word) (s : State) :
    issue k arg s = issueRest k (pollNonIdle s.cfg.respPollMax (afterSend k arg s)) := by
  unfold issue
  dsimp only
  rw [← afterSend]
  obtain ⟨_ | b, u⟩ := pollNonIdle s.cfg.respPollMax (afterSend k arg s) <;> rfl

section
variable (addr len : Option Nat) (tb : List Host.Cell)

/-! ## The port -/

@[simp] theorem withOperands_cfg (s : State) : (withOperands addr len tb s).cfg = s.cfg := rfl
@[simp] theorem withOperands_opState (s : State) : (withOperands addr len tb s).opState = s.opState := rfl
@[simp] theorem withOperands_family (s : State) : (withOperands addr len tb s).family = s.family := rfl
@[simp] theorem withOperands_generation (s : State) : (withOperands addr len tb s).generation = s.generation := rfl
@[simp] theorem withOperands_capClass (s : State) : (withOperands addr len tb s).capClass = s.capClass := rfl
@[simp] theorem withOperands_blockLen (s : State) : (withOperands addr len tb s).blockLen = s.blockLen := rfl

theorem recv_withOperands (s : State) :
    recv (withOperands addr len tb s) = Prod.map id (withOperands addr len tb) (recv s) := by
  have hin : (withOperands addr len tb s).cardIn = s.cardIn := rfl
  unfold recv
  cases h : s.cardIn <;> simp only [hin, h] <;> rfl

theorem recvN_withOperands (n : Nat) (s : State) :
    recvN n (withOperands addr len tb s) = Prod.map id (withOperands addr len tb) (recvN n s) := by
  induction n generalizing s with
  | zero => rfl
  | succ n ih => simp only [recvN, recv_withOperands, Prod.map, ih, id]

theorem pollNonIdle_withOperands (n : Nat) (s : State) :
    pollNonIdle n (withOperands addr len tb s) = Prod.map id (withOperands addr len tb) (pollNonIdle n s) := by
  induction n generalizing s with
  | zero => rfl
  | succ n ih =>
    simp only [pollNonIdle, recv_withOperands, Prod.map, ih, id, withOperands_cfg]
    split <;> rfl

theorem issueRest_withOperands (k : Cmd) (o : Option Byte × State) :
    issueRest k (Prod.map id (withOperands addr len tb) o) = Prod.map id (withOperands addr len tb) (issueRest k o) := by
  obtain ⟨_ | b, u⟩ := o
  · rfl
  · simp only [Prod.map, id, issueRest, recvN_withOperands]
    rfl

theorem issue_withOperands (k : Cmd) (arg : Word) (s : State) :
    issue k arg (withOperands addr len tb s) = Prod.map id (withOperands addr len tb) (issue k arg s) := by
  have hsend : afterSend k arg (withOperands addr len tb s) = withOperands addr len tb (afterSend k arg s) := rfl
  rw [issue_eq, issue_eq, hsend, withOperands_cfg, pollNonIdle_withOperands, issueRest_withOperands]

theorem issueApp_withOperands (k : Cmd) (arg : Word) (s : State) :
    issueApp k arg (withOperands addr len tb s) = Prod.map id (withOperands addr len tb) (issueApp k arg s) := by
  unfold issueApp
  rw [issue_withOperands]
  obtain ⟨_ | ⟨p, bs⟩, u⟩ := issue .appPrefix 0 s
  · rfl
  · simp only [Prod.map, id, issue_withOperands]
    split
    · obtain ⟨_ | ⟨r, bs⟩, v⟩ := issue k arg u <;> rfl
    · rfl

/-! ## `INIT` and `READ_STATUS` -/

theorem step1Reset_withOperands (o : Issued × State) :
    step1Reset (Prod.map id (withOperands addr len tb) o) = withOperands addr len tb (step1Reset o) := by
  obtain ⟨_ | ⟨r, bs⟩, u⟩ := o
  · rfl
  · simp only [Prod.map, id, step1Reset, apply_ite (withOperands addr len tb)]
    rfl

theorem step2Voltage_withOperands (o : Issued × State) :
    step2Voltage (Prod.map id (withOperands addr len tb) o) = withOperands addr len tb (step2Voltage o) := by
  obtain ⟨_ | ⟨r, bs⟩, u⟩ := o
  · rfl
  · simp only [Prod.map, id, step2Voltage, apply_ite (withOperands addr len tb)]
    rfl

theorem step3Family_withOperands (o : Issued × State) :
    step3Family (Prod.map id (withOperands addr len tb) o) = withOperands addr len tb (step3Family o) := by
  obtain ⟨_ | ⟨r, bs⟩, u⟩ := o
  · rfl
  · simp only [Prod.map, id, step3Family, apply_ite (withOperands addr len tb)]
    rfl

theorem beginStep4_withOperands (s : State) :
    beginStep4 (withOperands addr len tb s) = mapNext (withOperands addr len tb) (beginStep4 s) := by
  simp only [beginStep4, withOperands_family, withOperands_generation]
  obtain _ | _ | _ := s.family
  · rfl
  · cases s.generation <;> rfl
  · rfl

theorem prefixFailed_withOperands (p : Byte) (s : State) :
    prefixFailed p (withOperands addr len tb s) = withOperands addr len tb (prefixFailed p s) := by
  simp only [prefixFailed, apply_ite (withOperands addr len tb)]
  rfl

theorem step4Prefix_withOperands (harg : Word) (k : Nat) (o : Issued × State) :
    step4Prefix harg k (Prod.map id (withOperands addr len tb) o) = withOperands addr len tb (step4Prefix harg k o) := by
  obtain ⟨_ | ⟨r, bs⟩, u⟩ := o
  · rfl
  · simp only [Prod.map, id, step4Prefix, prefixFailed_withOperands, apply_ite (withOperands addr len tb)]
    rfl

theorem step4Target_withOperands (harg : Word) (k : Nat) (r : Byte) (s : State) :
    step4Target harg k r (withOperands addr len tb s) = withOperands addr len tb (step4Target harg k r s) := by
  simp only [step4Target, apply_ite (withOperands addr len tb)]
  rfl

theorem step4AppOpCond_withOperands (harg : Word) (k : Nat) (o : Issued × State) :
    step4AppOpCond harg k (Prod.map id (withOperands addr len tb) o)
      = withOperands addr len tb (step4AppOpCond harg k o) := by
  obtain ⟨_ | ⟨r, bs⟩, u⟩ := o
  · rfl
  · exact step4Target_withOperands ..

theorem step4Attempt_withOperands (harg : Word) (k : Nat) (o : AppIssued × State) :
    step4Attempt harg k (Prod.map id (withOperands addr len tb) o)
      = withOperands addr len tb (step4Attempt harg k o) := by
  obtain ⟨_ | p | r, u⟩ := o
  · rfl
  · exact prefixFailed_withOperands ..
  · exact step4Target_withOperands ..

theorem step4Fallback_withOperands (k : Nat) (o : Issued × State) :
    step4Fallback k (Prod.map id (withOperands addr len tb) o) = withOperands addr len tb (step4Fallback k o) := by
  obtain ⟨_ | ⟨r, bs⟩, u⟩ := o
  · rfl
  · simp only [Prod.map, id, step4Fallback, apply_ite (withOperands addr len tb)]
    rfl

theorem beginStep5_withOperands (s : State) :
    beginStep5 (withOperands addr len tb s) = mapNext (withOperands addr len tb) (beginStep5 s) := by
  simp only [beginStep5, withOperands_generation]
  obtain _ | _ | _ := s.generation <;> rfl

theorem step5Ocr_withOperands (k : Nat) (o : Issued × State) :
    step5Ocr k (Prod.map id (withOperands addr len tb) o) = withOperands addr len tb (step5Ocr k o) := by
  obtain ⟨_ | ⟨r, bs⟩, u⟩ := o
  · rfl
  · simp only [Prod.map, id, step5Ocr, apply_ite (withOperands addr len tb)]
    rfl

theorem beginStep6_withOperands (s : State) :
    beginStep6 (withOperands addr len tb s) = mapNext (withOperands addr len tb) (beginStep6 s) := by
  simp only [beginStep6, withOperands_capClass]
  obtain _ | _ | _ := s.capClass <;> rfl

theorem step6SetLen_withOperands (o : Issued × State) :
    step6SetLen (Prod.map id (withOperands addr len tb) o) = withOperands addr len tb (step6SetLen o) := by
  obtain ⟨_ | ⟨r, bs⟩, u⟩ := o
  · rfl
  · simp only [Prod.map, id, step6SetLen, apply_ite (withOperands addr len tb)]
    rfl

theorem finishReadStatus_withOperands (o : Issued × State) :
    finishReadStatus (Prod.map id (withOperands addr len tb) o) = withOperands addr len tb (finishReadStatus o) := by
  obtain ⟨_ | ⟨r, bs⟩, u⟩ := o <;> rfl

/-- The own step of a position of `INIT` or `READ_STATUS` reads none of the operands. -/
theorem ownStep_withOperands {p : Pos} (hp : p.inInit = true ∨ p = .sendStatus) (arg : Word) (s : State) :
    ownStep arg (withOperands addr len tb s) p = mapNext (withOperands addr len tb) (ownStep arg s p) := by
  cases p with
  | readCmd | readToken | writeCmd | writeFrame | dataResp | writeBusy | writeVerdict | readStop | readStopBusy
  | writeStop | writeStopBusy => rcases hp with hp | hp <;> cases hp
  | step4 => exact beginStep4_withOperands ..
  | step5 => exact beginStep5_withOperands ..
  | step6 => exact beginStep6_withOperands ..
  | reset => simp only [ownStep, mapNext, issue_withOperands, step1Reset_withOperands]
  | ifCond => simp only [ownStep, mapNext, issue_withOperands, step2Voltage_withOperands]
  | ocrFamily => simp only [ownStep, mapNext, issue_withOperands, step3Family_withOperands]
  | appPrefix => simp only [ownStep, mapNext, issue_withOperands, step4Prefix_withOperands]
  | appOpCond => simp only [ownStep, mapNext, issue_withOperands, step4AppOpCond_withOperands]
  | opCond => simp only [ownStep, mapNext, issue_withOperands, step4Fallback_withOperands]
  | ocrCapacity => simp only [ownStep, mapNext, issue_withOperands, step5Ocr_withOperands]
  | setBlockLen => simp only [ownStep, mapNext, issue_withOperands, step6SetLen_withOperands]
  | sendStatus => simp only [ownStep, mapNext, issue_withOperands, finishReadStatus_withOperands]

/-- Neither does any turn inside them, in every state. -/
theorem InitTurn.withOperands {p : Pos} {f : State → Host.Outcome State Fault Refusal}
    (hp : p.inInit = true ∨ p = .sendStatus) (hf : InitTurn p f) (s : State) :
    f (Claims.withOperands addr len tb s) = mapNext (Claims.withOperands addr len tb) (f s) := by
  cases hf with
  | refuses r => rfl
  | own arg => exact ownStep_withOperands addr len tb hp arg s
  | pair harg k arg => simp only [mapNext, issueApp_withOperands, step4Attempt_withOperands]

theorem step_withOperands {s : State} {p : Pos} (hu : Unhurried s) (hs : s.opState = .busy p)
    (hp : p.inInit = true ∨ p = .sendStatus) :
    step (withOperands addr len tb s) = mapNext (withOperands addr len tb) (step s) := by
  obtain ⟨f, hf, hturn⟩ := turn_init hp s
  have hu' : Unhurried (withOperands addr len tb s) := hu
  rw [step_unhurried hu hs, step_unhurried hu' hs, hturn s hs rfl rfl, hturn (withOperands addr len tb s) hs rfl rfl]
  exact hf.withOperands addr len tb hp s

/-! ## The starts -/

theorem whenIdle_withOperands {s : State} {o o' : Host.Outcome State Fault Refusal}
    (h : o' = mapNext (withOperands addr len tb) o) :
    whenIdle (withOperands addr len tb s) o' = mapNext (withOperands addr len tb) (whenIdle s o) := by
  simp only [whenIdle, withOperands_opState]
  split
  · exact h
  · rfl

/-- An accessor reads its own register alone (R250). -/
theorem accessor_withOperands {α : Type} (r : RegName) (v : Option α) (f : α → Half) (s : State) :
    withReg r v (fun a => .next (returnValue (f a) (withOperands addr len tb s)))
      = mapNext (withOperands addr len tb) (withReg r v fun a => .next (returnValue (f a) s)) := by
  cases v <;> rfl

end

/-- Settles O59: a turn inside `INIT` or `READ_STATUS` and each of those starts commute with replacing the operands. -/
theorem operandsNotNamedAreIgnored : Obligations.OperandsNotNamedAreIgnored := by
  intro s addr len tb
  refine ⟨fun p hu hs hp => step_withOperands addr len tb hu hs hp, fun i hi => ?_⟩
  simp only [List.mem_cons, List.not_mem_nil, or_false] at hi
  obtain rfl | rfl | rfl | rfl | rfl := hi
  · exact whenIdle_withOperands addr len tb rfl
  · exact whenIdle_withOperands addr len tb rfl
  all_goals exact whenIdle_withOperands addr len tb (accessor_withOperands ..)

end Sys2Proof.Machine
end

section
/-! PROOFS. The memory family: TB as a function of its bytes (O10), the wire address of a block command (O11), and
the starts that end in their alignment checks (O16). -/

namespace Sys2Proof.Machine
open Sys2Proof.Claims

/-! ## TB as a function of its bytes -/

/-- A written range reads back (R52). -/
theorem Mem.readRange_write (m : List Host.Cell) (a : Nat) (bs : List Byte) :
    Mem.readRange (Mem.write m a bs) a bs.length = some bs := by
  refine Mem.readRange_of_read _ bs a fun i hi => ?_
  rw [Mem.read_write, if_pos ⟨Nat.le_add_right a i, Nat.add_lt_add_left hi a⟩, Nat.add_sub_cancel_left,
    List.getElem?_eq_getElem hi]

/-- A write leaves every byte outside its range (R52). -/
theorem Mem.read_write_of_outside (m : List Host.Cell) {a : Nat} {bs : List Byte} {k : Nat}
    (hk : k < a ∨ a + bs.length ≤ k) : Mem.read (Mem.write m a bs) k = Mem.read m k := by
  rw [Mem.read_write, if_neg (by omega)]

/-- In the canonical form a byte holds a value exactly when it is listed with it. -/
theorem Mem.read_eq_some_iff_mem {m : List Host.Cell} (hm : Mem.wf m) (a : Nat) (b : Byte) :
    Mem.read m a = some b ↔ (a, b) ∈ m := by
  induction m with
  | nil => simp [Mem.read]
  | cons p m ih =>
    obtain ⟨k, v⟩ := p
    obtain ⟨hlt, hrest⟩ := List.pairwise_cons.1 hm
    by_cases hk : k = a
    · subst hk
      have hnot : (k, b) ∉ m := fun h => Nat.lt_irrefl k (hlt _ h)
      simp [Mem.read, hnot, eq_comm]
    · simp [Mem.read, hk, Ne.symm hk, ih hrest]

/-- Canonical buffers that read the same list the same cells in the same order (R52; log 7). -/
theorem Mem.eq_of_read_eq {m m' : List Host.Cell} (hm : Mem.wf m) (hm' : Mem.wf m')
    (h : ∀ a, Mem.read m a = Mem.read m' a) : m = m' := by
  refine List.Pairwise.eq_of_mem_iff (r := InvImage (· < ·) Prod.fst) hm hm' fun ⟨a, b⟩ => ?_
  rw [← Mem.read_eq_some_iff_mem hm, ← Mem.read_eq_some_iff_mem hm', h a]

/-- Settles O10: a write decides each byte, and a canonical buffer is decided by its bytes. -/
theorem transferBufferReadsBack : Obligations.TransferBufferReadsBack :=
  ⟨fun m a bs => ⟨Mem.readRange_write m a bs, fun _ hk => Mem.read_write_of_outside m hk⟩,
    fun _ _ hm hm' h => Mem.eq_of_read_eq hm hm' h⟩

/-! ## The wire address -/

/-- An address below 2^32 always has an argument (R54). -/
theorem wireArg_isSome_of_lt {cap : CapClass} {bl : Word} {a : Nat} (ha : a < 2 ^ 32) :
    (wireArg cap bl a).isSome := by
  rw [Option.isSome_iff_ne_none, ne_eq, wireArg_eq_none, Nat.not_le]
  exact (wireAddr_le cap bl a).trans_lt ha

/-- Settles O11: the argument is the wire address when that has 32 bits, and an aligned address is its index times 512. -/
theorem wireAddress : Obligations.WireAddress := by
  intro bl a
  have hindex : wireAddr .high 512 a = a / 512 := rfl
  refine ⟨rfl, rfl, fun cap => ⟨fun wa => wireArg_eq_some, wireArg_eq_none, wireArg_isSome_of_lt⟩,
    fun ha => ?_, fun hal => ?_⟩
  · rw [hindex]
    exact Nat.div_lt_of_lt_mul ha
  · rw [hindex]
    exact Nat.div_mul_cancel (Nat.dvd_of_mod_eq_zero hal)

/-! ## The prechecks that fail -/

/-- From an IDLE state an end without bus traffic writes `RESULT_KIND` alone (R211). -/
theorem endNoBus_of_idle {s : State} (h : s.opState = .idle) (r : Option ErrorKind) :
    endNoBus r s = { s with resultKind := some (resultCode r) } := by
  rw [endNoBus, ← h]

/-- An alignment check fails exactly on a nonzero remainder (R61). -/
theorem aligned_eq_false_iff {bl : Word} {v : Nat} : aligned bl v = false ↔ v % bl.toNat ≠ 0 := by
  rw [← Bool.not_eq_true, aligned_iff]

section
variable {s : State} {bl : Word} {a l : Nat} {cap : CapClass} {k : Word → Xfer → State}

/-- A misaligned address ends every block operation with code 9 (R211), whatever the length. -/
theorem blockStart_of_addr_misaligned {multi : Bool} (hs : SessionAt bl a cap s) (hal : a % bl.toNat ≠ 0) :
    blockStart multi s k = .next { s with resultKind := some 9 } := by
  obtain ⟨hidle, hv, hb, ha, -⟩ := hs
  simp [blockStart, withReg, hv, hb, ha, aligned_eq_false_iff.2 hal, endNoBus_of_idle hidle, resultCode,
    ErrorKind.code]

/-- With an aligned address a misaligned length ends a multi-block operation with code 11 (R211). -/
theorem blockStart_multi_of_len_misaligned (hs : SessionAt bl a cap s) (hal : a % bl.toNat = 0)
    (hl : s.reqLen = some l) (hll : l % bl.toNat ≠ 0) :
    blockStart true s k = .next { s with resultKind := some 11 } := by
  obtain ⟨hidle, hv, hb, ha, -⟩ := hs
  simp [blockStart, withReg, hv, hb, ha, aligned_iff.2 hal, hl, aligned_eq_false_iff.2 hll,
    endNoBus_of_idle hidle, resultCode, ErrorKind.code]

end

/-- Settles O16: each operation is the shared prechecks, which end it at the first misaligned operand. -/
theorem prechecksFail : Obligations.PrechecksFail := by
  intro s bl a l cap hs
  have ⟨hidle, _⟩ := hs
  refine ⟨fun hal i hi => ?addr, fun hal hl hll i hi => ?len⟩
  case addr =>
    obtain ⟨multi, k, hk⟩ := exec_blockOps_eq_blockStart hidle hi
    rw [hk, blockStart_of_addr_misaligned hs hal]
  case len =>
    obtain ⟨k, hk⟩ := exec_multi_eq_blockStart hidle hi
    rw [hk, blockStart_multi_of_len_misaligned hs hal hl hll]

end Sys2Proof.Machine
end

section
/-! PROOFS. The encoding (spec/30_encoding.md): the fields of a packet (O4, O5), and each decoder beside the encoder in
both directions (O2, O3, O1). -/

namespace Sys2Proof.Machine

/-! ## The fields of a packet (R71) -/

theorem packetByte0_start (idx : BitVec 6) : (packetByte0 idx).extractLsb' 6 2 = 0b01#2 := by
  revert idx; decide

/-- A byte with the start bits of a packet is the first byte of its index. -/
theorem packetByte0_of_start {p : Byte} (h : p.extractLsb' 6 2 = 0b01#2) : packetByte0 (p.extractLsb' 0 6) = p := by
  revert p; decide

theorem packetByte0_eq_or (idx : BitVec 6) : packetByte0 idx = 0x40#8 ||| idx.setWidth 8 := by
  revert idx; decide

theorem lastByte_endBit (crc : BitVec 7) : (crc ++ 1#1).getLsbD 0 = true := by
  revert crc; decide

theorem lastByte_crc (crc : BitVec 7) : (crc ++ 1#1).extractLsb' 1 7 = crc :=
  BitVec.extractLsb'_append_eq_left

/-- A byte with the end bit is its CRC field and that bit. -/
theorem lastByte_of_endBit {p : Byte} (h : p.getLsbD 0 = true) : p.extractLsb' 1 7 ++ 1#1 = p := by
  revert p; decide

/-- The transmitted byte of R112 has the CRC in its upper seven bits. -/
theorem crc7TxByte_eq_append (data : List Byte) : crc7TxByte data = crc7 data ++ 1#1 := by
  unfold crc7TxByte
  generalize crc7 data = crc
  revert crc; decide

/-- A frame is the packet whose CRC field is right (R74). -/
theorem frame_eq_packet (idx : BitVec 6) (arg : Word) : frame idx arg = packet idx arg (crc7 (packetHead idx arg)) := by
  rw [frame, packet, crc7TxByte_eq_append]

/-- The big-endian bytes of four bytes put together are those bytes (R55). -/
theorem be32_append (p1 p2 p3 p4 : Byte) : be32 (p1 ++ p2 ++ p3 ++ p4) = [p1, p2, p3, p4] := by
  have h4 : (p1 ++ p2 ++ p3 ++ p4).extractLsb' 0 8 = p4 := BitVec.extractLsb'_append_eq_right
  have h3 : (p1 ++ p2 ++ p3 ++ p4).extractLsb' 8 8 = p3 :=
    (BitVec.extractLsb'_append_eq_of_le (by decide)).trans BitVec.extractLsb'_append_eq_right
  have h2 : (p1 ++ p2 ++ p3 ++ p4).extractLsb' 16 8 = p2 :=
    (BitVec.extractLsb'_append_eq_of_le (by decide)).trans <|
      (BitVec.extractLsb'_append_eq_of_le (by decide)).trans BitVec.extractLsb'_append_eq_right
  have h1 : (p1 ++ p2 ++ p3 ++ p4).extractLsb' 24 8 = p1 :=
    (BitVec.extractLsb'_append_eq_of_le (by decide)).trans <|
      (BitVec.extractLsb'_append_eq_of_le (by decide)).trans BitVec.extractLsb'_append_eq_left
  rw [be32, h1, h2, h3, h4]

/-- Four bytes read big-endian are those bytes put together (R58). -/
theorem ofBe_eq_append (p1 p2 p3 p4 : Byte) : ofBe [p1, p2, p3, p4] = p1 ++ p2 ++ p3 ++ p4 := by
  rw [← be32_append, ofBe_be32]

/-- Settles O4: the first byte is 0x40 with the index in it, the rest is R71's layout as the model writes it. -/
theorem frameLayout : Obligations.FrameLayout := by
  intro idx arg
  rw [← packetByte0_eq_or]
  rfl

/-! ## Packets -/

section
variable {c : Config} {p0 p1 p2 p3 p4 p5 : Byte}

/-- The first five bytes of a packet with its start bits are those of its index and argument. -/
theorem packetHead_of_bytes (h0 : p0.extractLsb' 6 2 = 0b01#2) :
    packetHead (p0.extractLsb' 0 6) (p1 ++ p2 ++ p3 ++ p4) = [p0, p1, p2, p3, p4] := by
  rw [packetHead, packetByte0_of_start h0, be32_append]

/-- Six bytes with the fixed bits of a packet are the packet of their fields. -/
theorem packet_of_bytes (h0 : p0.extractLsb' 6 2 = 0b01#2) (h5 : p5.getLsbD 0 = true) :
    packet (p0.extractLsb' 0 6) (p1 ++ p2 ++ p3 ++ p4) (p5.extractLsb' 1 7) = [p0, p1, p2, p3, p4, p5] := by
  rw [packet, packetHead_of_bytes h0, lastByte_of_endBit h5]
  rfl

/-- R77, field by field. -/
theorem packetWellFormed_iff : packetWellFormed [p0, p1, p2, p3, p4, p5] = true ↔
    p0.extractLsb' 6 2 = 0b01#2 ∧ p5.getLsbD 0 = true ∧ p5.extractLsb' 1 7 = crc7 [p0, p1, p2, p3, p4] := by
  simp only [packetWellFormed, Bool.and_eq_true, beq_iff_eq, and_assoc]

/-- Every frame is well formed (R74, R77). -/
theorem packetWellFormed_frame (idx : BitVec 6) (arg : Word) : packetWellFormed (frame idx arg) = true := by
  rw [frame_eq_packet]
  exact packetWellFormed_iff.2 ⟨packetByte0_start idx, lastByte_endBit _, lastByte_crc _⟩

/-- A well-formed packet is the frame of its index and argument. -/
theorem frame_of_packetWellFormed (h : packetWellFormed [p0, p1, p2, p3, p4, p5] = true) :
    frame (p0.extractLsb' 0 6) (p1 ++ p2 ++ p3 ++ p4) = [p0, p1, p2, p3, p4, p5] := by
  obtain ⟨h0, h5, hcrc⟩ := packetWellFormed_iff.1 h
  rw [frame_eq_packet, packetHead_of_bytes h0, ← hcrc, packet_of_bytes h0 h5]

/-- What a packet decodes to: the command of its index with its argument and its CRC field. -/
theorem decodePacket_eq_ok_iff {i : Instr} : decodePacket c p0 p1 p2 p3 p4 p5 = .ok i ↔
    p0.extractLsb' 6 2 = 0b01#2 ∧ p5.getLsbD 0 = true
    ∧ ∃ k, cmdOfIdx c (p0.extractLsb' 0 6) = some k ∧ i = .ofCmd k (p1 ++ p2 ++ p3 ++ p4) (p5.extractLsb' 1 7) := by
  rw [← ofBe_eq_append]
  unfold decodePacket
  by_cases h0 : p0.extractLsb' 6 2 = 0b01#2
  · cases h5 : p5.getLsbD 0 with
    | true =>
      simp only [h0, ne_eq, not_true, if_false, Bool.true_eq_false, true_and]
      cases cmdOfIdx c (p0.extractLsb' 0 6) with
      | none => simp only [reduceCtorEq, false_and, exists_false]
      | some k => simp only [Except.ok.injEq, Option.some.injEq, exists_eq_left', eq_comm]
    | false => simp only [h0, ne_eq, not_true, if_false, if_true, reduceCtorEq, false_and, and_false]
  · simp only [h0, ne_eq, not_false_eq_true, if_true, reduceCtorEq, false_and]

/-- Settles O5: a packet is well formed exactly when its bytes are the frame of its own fields. -/
theorem wellFormedPacketIsFrame : Obligations.WellFormedPacketIsFrame := by
  intro c p0 p1 p2 p3 p4 p5
  refine ⟨⟨frame_of_packetWellFormed, fun h => h ▸ packetWellFormed_frame _ _⟩, fun h k hk => ?_⟩
  obtain ⟨h0, h5, hcrc⟩ := packetWellFormed_iff.1 h
  exact decodePacket_eq_ok_iff.2 ⟨h0, h5, k, hk, by rw [hcrc]⟩

/-- The command found for an index has that index (R72). -/
theorem idx_of_cmdOfIdx {idx : BitVec 6} {k : Cmd} (h : cmdOfIdx c idx = some k) : c.idx k = idx :=
  beq_iff_eq.1 (List.find?_some (p := fun k => c.idx k == idx) h)

theorem encode_ofCmd (k : Cmd) (arg : Word) (crc : BitVec 7) :
    encode c (.ofCmd k arg crc) = packet (c.idx k) arg crc := by
  cases k <;> rfl

theorem encode_of_decodePacket {i : Instr} (h : decodePacket c p0 p1 p2 p3 p4 p5 = .ok i) :
    encode c i = [p0, p1, p2, p3, p4, p5] := by
  obtain ⟨h0, h5, k, hk, rfl⟩ := decodePacket_eq_ok_iff.1 h
  rw [encode_ofCmd, idx_of_cmdOfIdx hk, packet_of_bytes h0 h5]

end

/-! ## The two packets of an application command (R76) -/

theorem decode_appPair {c : Config} (hv : c.valid = true) (arg : Word) (crc : BitVec 7) :
    decode c .packet (frame (c.idx .appPrefix) 0 ++ packet (c.idx .appOpCond) arg crc) = .ok (.acmd41 arg crc) := by
  have hp : decodePacket c _ _ _ _ _ _ = .ok (.cmdAppOpCond arg crc) := decodePacket_packet hv .appOpCond arg crc
  change decodeAppPair c (frame (c.idx .appPrefix) 0) (packet (c.idx .appOpCond) arg crc) = _
  simp only [decodeAppPair, packet, packetHead, be32, List.cons_append, List.nil_append, ne_eq, not_true, if_false, hp]

theorem encode_of_decodeAppPair {c : Config} {first second : List Byte} {i : Instr}
    (h : decodeAppPair c first second = .ok i) : encode c i = first ++ second := by
  unfold decodeAppPair at h
  split at h
  · split at h
    · cases h
    · next hfirst =>
      split at h
      · next arg crc hp =>
        cases h
        rw [not_not.1 hfirst, ← encode_of_decodePacket hp]
        rfl
      · cases h
  · cases h

/-! ## Host operation codes (R98) -/

theorem encode_decodeHostOp (c : Config) (op : BitVec 4) : encode c (decodeHostOp op) = [op.setWidth 8] := by
  obtain ⟨⟨op, hlt⟩⟩ := op
  interval_cases op <;> rfl

/-- A byte whose upper half is 0 is its lower half (R97). -/
theorem setWidth_of_upper_zero {b : Byte} (h : b.extractLsb' 4 4 = 0) : (b.extractLsb' 0 4).setWidth 8 = b := by
  revert b; decide

/-! ## Tokens (R88-R94) -/

theorem decode_rxToken_start (c : Config) (multi : Bool) :
    decode c (.rxToken multi) [rxStartToken c multi] = .ok (if multi then .tokStartMultiRd else .tokStartSingle) := by
  simp only [decode, decodeRxToken, if_true]

theorem decode_rxToken_error {c : Config} {multi : Bool} {b : Byte} (hb : b ≠ rxStartToken c multi)
    (he : b &&& c.errTokenMask = 0) : decode c (.rxToken multi) [b] = .ok (.errorToken b) := by
  simp only [decode, decodeRxToken, hb, he, if_false, if_true]

theorem decode_rxToken_other {c : Config} {multi : Bool} {b : Byte} (hb : b ≠ rxStartToken c multi)
    (he : b &&& c.errTokenMask ≠ 0) : decode c (.rxToken multi) [b] = .error (.notAToken b) := by
  simp only [decode, decodeRxToken, hb, he, if_false]

/-- No error token of a valid configuration is a start token (R92). -/
theorem ne_rxStartToken_of_error {c : Config} (hv : c.valid = true) {b : Byte} (he : b &&& c.errTokenMask = 0)
    (multi : Bool) : b ≠ rxStartToken c multi := by
  rintro rfl
  refine Config.valid_not_error_token hv _ ?_ he
  cases multi <;> simp [rxStartToken]

theorem encode_of_decodeRxToken {c : Config} {multi : Bool} {b : Byte} {i : Instr}
    (h : decodeRxToken c multi b = .ok i) : encode c i = [b] := by
  unfold decodeRxToken at h
  split at h
  · next hb => cases multi <;> cases h <;> rw [hb] <;> rfl
  · split at h <;> cases h
    rfl

theorem decode_txToken_stop {c : Config} (hv : c.valid = true) :
    decode c .txToken [c.tokStopMultiWr] = .ok .tokStopMultiWr := by
  obtain ⟨-, hsingle, hmulti, -⟩ := Config.valid_tokens hv
  simp only [decode, decodeTxToken, hsingle.symm, hmulti.symm, if_false, if_true]

theorem encode_of_decodeTxToken {c : Config} {b : Byte} {i : Instr} (h : decodeTxToken c b = .ok i) :
    encode c i = [b] := by
  unfold decodeTxToken at h
  repeat' split at h
  all_goals cases h
  all_goals next hb => rw [hb]; rfl

theorem decodeDataResp_accepted (hi : BitVec 3) : decodeDataResp (hi ++ 0x05#5) = .ok (.dataRespAccepted hi) := by
  revert hi; decide

theorem decodeDataResp_crcRejected (hi : BitVec 3) :
    decodeDataResp (hi ++ 0x0B#5) = .ok (.dataRespCrcRejected hi) := by
  revert hi; decide

theorem decodeDataResp_writeRejected (hi : BitVec 3) :
    decodeDataResp (hi ++ 0x0D#5) = .ok (.dataRespWriteRejected hi) := by
  revert hi; decide

/-- A byte is its bits 7:5 and the value of its low five bits (R93). -/
theorem append_of_lowBits {b : Byte} {lo : BitVec 5} (h : b &&& 0x1F = lo.setWidth 8) :
    b.extractLsb' 5 3 ++ lo = b := by
  have hsplit : b.extractLsb' 5 3 ++ (b &&& 0x1F).setWidth 5 = b := by
    clear h
    revert b; decide
  rwa [h, BitVec.setWidth_setWidth_of_le _ (by decide), BitVec.setWidth_eq] at hsplit

theorem encode_of_decodeDataResp (c : Config) {b : Byte} {i : Instr} (h : decodeDataResp b = .ok i) :
    encode c i = [b] := by
  unfold decodeDataResp at h
  repeat' split at h
  all_goals cases h
  all_goals next hb => exact congrArg (fun x => [x]) (append_of_lowBits hb)

/-! ## Decoding and encoding -/

/-- Decoding an encoded well-formed instruction as the kind of item it is gives the instruction. -/
theorem decode_encode {c : Config} {i : Instr} (hv : c.valid = true) (hi : i.wellFormed c = true) :
    decode c i.fmt (encode c i) = .ok i := by
  cases i with
  | reserved0 | init | readBlock | writeBlock | readBlocks | writeBlocks | readStatus | getIsMmc | getBlockLen | getIsHc
  | reservedA | eraseOutOfScope | getSizeOutOfScope | reservedD | reservedE | reservedF => rfl
  | cmdReset a r | cmdSendOpCond a r | cmdIfCond a r | cmdStopTransmission a r | cmdSendStatus a r | cmdSetBlockLen a r
  | cmdReadSingle a r | cmdReadMulti a r | cmdWriteSingle a r | cmdWriteMulti a r | cmdAppOpCond a r | cmdAppPrefix a r
  | cmdReadOcr a r => exact decodePacket_packet hv _ a r
  | acmd41 a r => exact decode_appPair hv a r
  | tokStartSingle => exact decode_rxToken_start c false
  | tokStartMultiRd => exact decode_rxToken_start c true
  | tokStartMultiWr => exact decode_txStartToken hv true
  | tokStopMultiWr => exact decode_txToken_stop hv
  | errorToken b =>
    have he : b &&& c.errTokenMask = 0 := beq_iff_eq.1 hi
    exact decode_rxToken_error (ne_rxStartToken_of_error hv he false) he
  | dataRespAccepted high => exact decodeDataResp_accepted high
  | dataRespCrcRejected high => exact decodeDataResp_crcRejected high
  | dataRespWriteRejected high => exact decodeDataResp_writeRejected high

/-- Settles O2: the round trip of each kind of item, and of the two tokens that have a second kind. -/
theorem decodeEncode : Obligations.DecodeEncode := by
  intro c i hv hi
  refine ⟨decode_encode hv hi, ?single, ?error⟩
  case single =>
    rintro rfl
    exact decode_txStartToken hv false
  case error =>
    rintro b rfl
    have he : b &&& c.errTokenMask = 0 := beq_iff_eq.1 hi
    exact decode_rxToken_error (ne_rxStartToken_of_error hv he true) he

/-- Settles O3: each decoder takes only the bytes its instruction is encoded as. -/
theorem encodeDecode : Obligations.EncodeDecode := by
  intro c f bytes i h
  unfold decode at h
  split at h
  case h_1 b =>
    split at h <;> cases h
    next hupper => rw [encode_decodeHostOp, setWidth_of_upper_zero hupper]
  case h_2 => exact encode_of_decodePacket h
  case h_3 => exact encode_of_decodeAppPair h
  case h_4 => exact encode_of_decodeTxToken h
  case h_5 => exact encode_of_decodeRxToken h
  case h_6 => exact encode_of_decodeDataResp c h
  case h_7 => cases h

/-- Settles O1: each word is the encoding of its instruction under the default configuration. -/
theorem listedWordsDecode : Obligations.ListedWordsDecode := by
  have hprefix : frame (Config.standard.idx .appPrefix) 0 = [0x77, 0x00, 0x00, 0x00, 0x00, 0x65] := by decide +kernel
  have hpair := decode_appPair standard_valid 0x40000000 0x3B
  rw [hprefix] at hpair
  exact ⟨decodePacket_packet standard_valid .reset 0 0x4A, decodePacket_packet standard_valid .ifCond 0x1AA 0x43,
    decodePacket_packet standard_valid .setBlockLen 0x200 0x0A,
    decodePacket_packet standard_valid .readSingle 0x200 0x3C, hpair, decode_hostOp Config.standard 4,
    decode_rxToken_start Config.standard false, decode_txStartToken standard_valid true,
    decodeDataResp_accepted 0b111⟩

end Sys2Proof.Machine
end

section
/-! PROOFS. What the encoding's other rules say of a step: the token poll (O38), the application command as its two
commands (O28), and the starts that have no meaning (O17). -/

namespace Sys2Proof.Machine
open Sys2Proof.Claims

/-! ## The token poll (R94) -/

/-- A byte that is neither token is skipped (R94, R214). -/
theorem turn_fetchRxToken_skipped {x : Xfer} {k : Nat} {s : State} {e : DecodeError}
    (h : decode s.cfg (.rxToken x.multi) [answer s 0] = .error e) :
    turnOutcome (fetchRxToken x k s) = .next (tokenSkipped x k (received 1 s)) := by
  have hc : (received 1 s).cfg = s.cfg := rfl
  simp only [fetchRxToken, recv_eq, hc, h, turnOutcome]

/-- Settles O38: the step is the fetch of the next answer, which decodes by the rule's three cases. -/
theorem tokenPoll : Obligations.TokenPoll := by
  intro s x k hu hp
  have hstep : step s = turnOutcome (fetchRxToken x k s) := step_unhurried hu hp
  refine ⟨fun hb => ?start, fun hb he => ?error, fun hb he => ?skipped⟩
  case start =>
    have hd := decode_rxToken_start s.cfg x.multi
    rw [show rxStartToken s.cfg x.multi = answer s 0 from hb.symm] at hd
    exact hstep.trans (turn_fetchRxToken hd)
  case error => exact hstep.trans (turn_fetchRxToken (decode_rxToken_error hb he))
  case skipped => exact hstep.trans (turn_fetchRxToken_skipped (decode_rxToken_other hb he))

/-! ## The application command (R136, R153) -/

theorem pollNonIdle_setPos (p : Pos) (n : Nat) (s : State) :
    pollNonIdle n (setPos p s) = Prod.map id (setPos p) (pollNonIdle n s) := by
  induction n generalizing s with
  | zero => rfl
  | succ n ih =>
    have hrecv : received 1 (setPos p s) = setPos p (received 1 s) := rfl
    have hanswer : answer (setPos p s) 0 = answer s 0 := rfl
    simp only [pollNonIdle, recv_eq, hrecv, hanswer, ih, setPos_cfg]
    split <;> rfl

theorem issueRest_setPos (p : Pos) (k : Cmd) (o : Option Byte × State) :
    issueRest k (Prod.map id (setPos p) o) = Prod.map id (setPos p) (issueRest k o) := by
  obtain ⟨_ | b, u⟩ := o
  · rfl
  · simp only [Prod.map, id, issueRest, recvN_eq]
    rfl

/-- `Issue` frames the packet itself (R131) and does not read the position: moving there first changes nothing else. -/
theorem issue_goCmd (p : Pos) (k : Cmd) (arg : Word) (s : State) :
    issue k arg (goCmd p k arg s) = Prod.map id (setPos p) (issue k arg s) := by
  have hsend : afterSend k arg (goCmd p k arg s) = setPos p (afterSend k arg s) := rfl
  rw [issue_eq, issue_eq, hsend, goCmd_cfg, pollNonIdle_setPos, issueRest_setPos]

/-- The target's parse ends at a position of its own, or IDLE, whichever it began at (R177). -/
theorem step4AppOpCond_setPos (harg : Word) (k : Nat) (p : Pos) (o : Issued × State) :
    step4AppOpCond harg k (Prod.map id (setPos p) o) = step4AppOpCond harg k o := by
  obtain ⟨_ | ⟨r, bs⟩, u⟩ := o
  · rfl
  · simp only [Prod.map, id, step4AppOpCond, step4Target]
    rfl

/-- An attempt of the SD loop is the parse of `CMD_APP_PREFIX`, and, where that let the target be sent, the target's. -/
theorem step4Attempt_issueApp (harg : Word) (k : Nat) (s : State) :
    (∃ u, step4Prefix harg k (issue .appPrefix 0 s) = goCmd (.appOpCond harg k) .appOpCond harg u
      ∧ step4Attempt harg k (issueApp .appOpCond harg s) = step4AppOpCond harg k (issue .appOpCond harg u))
    ∨ (step4Prefix harg k (issue .appPrefix 0 s)).opState = .idle
      ∧ step4Attempt harg k (issueApp .appOpCond harg s) = step4Prefix harg k (issue .appPrefix 0 s) := by
  unfold issueApp
  obtain ⟨_ | ⟨r, bs⟩, u⟩ := issue .appPrefix 0 s
  · exact .inr ⟨rfl, rfl⟩
  · by_cases hok : r1PrefixOk r = true
    · refine .inl ⟨u, if_pos hok, ?_⟩
      simp only [hok, if_true]
      obtain ⟨_ | ⟨r', bs'⟩, v⟩ := issue .appOpCond harg u <;> rfl
    · have hprefix : step4Prefix harg k (.response r bs, u) = prefixFailed r u := if_neg hok
      simp only [hok, hprefix]
      refine .inr ⟨?_, rfl⟩
      unfold prefixFailed raiseInit
      split <;> exact endOp_opState ..

/-- Settles O28: the pair issues the same first command, and its target does not see the position between. -/
theorem applicationCommandIsItsTwoCommands : Obligations.ApplicationCommandIsItsTwoCommands := by
  intro harg k c1 c2 c3 s u hp hu
  have hprefix : exec (.cmdAppPrefix 0 c1) s = .next (step4Prefix harg k (issue .appPrefix 0 s)) :=
    exec_posCmd (k := .appPrefix) hp rfl 0 c1
  have hpair : exec (.acmd41 harg c2) s = .next (step4Attempt harg k (issueApp .appOpCond harg s)) := by
    simp only [exec, execAcmd41, hp]
  cases hprefix.symm.trans hu
  obtain ⟨v, hgo, hattempt⟩ | ⟨hidle, hattempt⟩ := step4Attempt_issueApp harg k s
  · have htarget : exec (.cmdAppOpCond harg c3) (goCmd (.appOpCond harg k) .appOpCond harg v)
        = .next (step4AppOpCond harg k (issue .appOpCond harg (goCmd (.appOpCond harg k) .appOpCond harg v))) :=
      exec_posCmd (p := .appOpCond harg k) (k := .appOpCond) rfl rfl harg c3
    rw [hgo, if_pos (goCmd_opState ..), htarget, issue_goCmd, step4AppOpCond_setPos, hpair, hattempt]
  · have hnot : (step4Prefix harg k (issue .appPrefix 0 s)).opState ≠ .busy (.appOpCond harg k) := by
      rw [hidle]
      nofun
    rw [if_neg hnot, hpair, hattempt]

/-! ## The starts that are refused (R100, R210) -/

/-- Settles O17: the seven codes have no other meaning, and each block operation tests the session first. -/
theorem startsRefused : Obligations.StartsRefused := by
  intro s
  refine ⟨rfl, rfl, rfl, rfl, rfl, rfl, rfl, fun hidle hsession i hi => ?_⟩
  obtain ⟨multi, k, hk⟩ := exec_blockOps_eq_blockStart hidle hi
  rw [hk, blockStart_of_noSession hsession]

end Sys2Proof.Machine
end

section
/-! PROOFS. The CRC engines (spec/40_crc.md): both registers as one bit-serial register over a polynomial, which is
linear over XOR (O7); the 8-bit-register form of CRC7 (O6); a CRC16 and its two bytes (O8). -/

namespace Sys2Proof.Machine

/-! ## The register, over any polynomial -/

/-- What a feedback bit adds to the shifted register: the polynomial's taps, or nothing. -/
def feedback {w : Nat} (poly : BitVec w) (fb : Bool) : BitVec w := bif fb then poly else 0#w

/-- One input bit (R111, R115). -/
def lfsrBit {w : Nat} (poly c : BitVec w) (d : Bool) : BitVec w :=
  c <<< 1 ^^^ feedback poly (d ^^ c.getMsbD 0)

/-- One input byte, most significant bit first. -/
def lfsrByte {w : Nat} (poly c : BitVec w) (d : Byte) : BitVec w :=
  [7, 6, 5, 4, 3, 2, 1, 0].foldl (fun c i => lfsrBit poly c (d.getLsbD i)) c

/-- The register after a byte sequence, from seed 0. -/
def lfsr {w : Nat} (poly : BitVec w) (data : List Byte) : BitVec w := data.foldl (lfsrByte poly) 0#w

section
variable {w : Nat} (poly : BitVec w)

/-- The model writes the feedback as a branch. -/
theorem ite_eq_lfsrBit (c : BitVec w) (d : Bool) :
    (if d ^^ c.getMsbD 0 then c <<< 1 ^^^ poly else c <<< 1) = lfsrBit poly c d := by
  unfold lfsrBit feedback
  cases d ^^ c.getMsbD 0 with
  | true => rfl
  | false => exact BitVec.xor_zero.symm

theorem feedback_xor (p q : Bool) : feedback poly (p ^^ q) = feedback poly p ^^^ feedback poly q := by
  cases p <;> cases q <;> simp [feedback]

/-- Shift and feedback are linear in the register and the input bit together. -/
theorem lfsrBit_xor (a b : BitVec w) (d e : Bool) :
    lfsrBit poly (a ^^^ b) (d ^^ e) = lfsrBit poly a d ^^^ lfsrBit poly b e := by
  simp only [lfsrBit, BitVec.shiftLeft_xor_distrib, BitVec.getMsbD_xor, feedback_xor]
  ac_rfl

theorem lfsrByte_xor (a b : BitVec w) (d e : Byte) :
    lfsrByte poly (a ^^^ b) (d ^^^ e) = lfsrByte poly a d ^^^ lfsrByte poly b e :=
  List.foldl_hom₂ _ (· ^^^ ·) _ _ _ a b fun a b i => by rw [BitVec.getLsbD_xor, lfsrBit_xor]

theorem foldl_lfsrByte_xor {xs ys : List Byte} (h : xs.length = ys.length) (a b : BitVec w) :
    (List.zipWith (· ^^^ ·) xs ys).foldl (lfsrByte poly) (a ^^^ b)
      = xs.foldl (lfsrByte poly) a ^^^ ys.foldl (lfsrByte poly) b := by
  induction xs generalizing ys a b with
  | nil =>
    cases List.length_eq_zero_iff.1 h.symm
    rfl
  | cons x xs ih =>
    obtain _ | ⟨y, ys⟩ := ys
    · nomatch h
    · rw [List.zipWith_cons_cons, List.foldl_cons, lfsrByte_xor, ih (Nat.succ.inj h)]
      rfl

/-- From seed 0 the register is linear in the input. -/
theorem lfsr_xor {xs ys : List Byte} (h : xs.length = ys.length) :
    lfsr poly (List.zipWith (· ^^^ ·) xs ys) = lfsr poly xs ^^^ lfsr poly ys := by
  have hseeds := foldl_lfsrByte_xor poly h 0#w 0#w
  rwa [BitVec.xor_self] at hseeds

/-- A zero byte leaves the register at its seed. -/
theorem lfsrByte_zero : lfsrByte poly 0#w 0#8 = 0#w :=
  List.foldl_fixed' (fun i => by simp [lfsrBit, feedback]) _

theorem lfsr_zeros (n : Nat) : lfsr poly (List.replicate n 0#8) = 0#w := by
  unfold lfsr
  induction n with
  | zero => rfl
  | succ n ih => rw [List.replicate_succ, List.foldl_cons, lfsrByte_zero, ih]

end

/-! ## The two CRCs as that register (R111, R115) -/

theorem crc7_eq_lfsr : crc7 = lfsr 0b0001001#7 := by
  have hbit : crc7Bit = lfsrBit 0b0001001#7 := funext₂ (ite_eq_lfsrBit _)
  unfold crc7 crc7Byte
  rw [hbit]
  rfl

theorem crc16_eq_lfsr : crc16 = lfsr 0x1021#16 := by
  have hbit : crc16Bit = lfsrBit 0x1021#16 := funext₂ (ite_eq_lfsrBit _)
  unfold crc16 crc16Byte
  rw [hbit]
  rfl

/-- Settles O7: both CRCs are the register, which zero bytes leave at 0 and which is linear over XOR. -/
theorem crcCornerCases : Obligations.CrcCornerCases := by
  refine ⟨fun n => ?_, fun xs ys h => ?_, by decide +kernel, by decide +kernel⟩
  · rw [crc7_eq_lfsr, crc16_eq_lfsr]
    exact ⟨lfsr_zeros _ n, lfsr_zeros _ n⟩
  · rw [crc7_eq_lfsr, crc16_eq_lfsr]
    exact ⟨lfsr_xor _ h, lfsr_xor _ h⟩

/-! ## The 8-bit-register form of CRC7 (R113) -/

/-- The low seven bits of the 8-bit register take one bit as the CRC7 register does: bit 7 after the shift is the
old bit 6. -/
theorem crc7AccBit_setWidth (a : Byte) (d : Bool) : (crc7AccBit a d).setWidth 7 = crc7Bit (a.setWidth 7) d := by
  have hmsb : (a <<< 1).getMsbD 0 = (a.setWidth 7).getMsbD 0 := by
    simp [BitVec.getMsbD_shiftLeft, BitVec.getMsbD_setWidth]
  have hshift : (a <<< 1).setWidth 7 = a.setWidth 7 <<< 1 := BitVec.setWidth_shiftLeft_of_le (by decide)
  unfold crc7AccBit crc7Bit
  rw [hmsb, ← hshift, apply_ite (BitVec.setWidth 7), BitVec.setWidth_xor]
  rfl

theorem crc7AccByte_setWidth (a d : Byte) : (crc7AccByte a d).setWidth 7 = crc7Byte (a.setWidth 7) d :=
  (List.foldl_hom (g₁ := fun a i => crc7AccBit a (d.getLsbD i)) (BitVec.setWidth 7)
    fun a i => (crc7AccBit_setWidth a (d.getLsbD i)).symm).symm

theorem crc7Acc_eq_crc7 (data : List Byte) : crc7Acc data = crc7 data :=
  (List.foldl_hom (BitVec.setWidth 7) fun a d => (crc7AccByte_setWidth a d).symm).symm

/-- Settles O6: the low seven bits of the 8-bit register are the CRC7 register after every byte. -/
theorem crc7EightBitRegister : Obligations.Crc7EightBitRegister := by
  refine ⟨fun data => ⟨crc7Acc_eq_crc7 data, ?_⟩, fun f => ?_⟩
  · rw [crc7Acc_eq_crc7, crc7TxByte]
  · simp only [crc7Acc_eq_crc7]

/-! ## The two bytes of a CRC16 (R118, R119) -/

/-- A 16-bit value has two given bytes, most significant first, exactly when it is them put together. -/
theorem bytes_eq_iff (c : Half) (hi lo : Byte) :
    [c.extractLsb' 8 8, c.extractLsb' 0 8] = [hi, lo] ↔ hi ++ lo = c := by
  constructor
  · rintro ⟨⟩
    have hsplit : c.extractLsb' 8 8 ++ c.extractLsb' 0 8 = c.extractLsb' 0 16 :=
      BitVec.extractLsb'_append_extractLsb'_eq_extractLsb' rfl
    rw [hsplit, BitVec.extractLsb'_eq_self]
  · rintro rfl
    rw [BitVec.extractLsb'_append_eq_left, BitVec.extractLsb'_append_eq_right]

/-- Settles O8: the check compares the two bytes put together with the CRC16 whose two bytes are generated. -/
theorem crc16CheckAcceptsGenerated : Obligations.Crc16CheckAcceptsGenerated := by
  intro p hi lo
  rw [crc16Check, beq_iff_eq, crc16Gen, bytes_eq_iff]

end Sys2Proof.Machine
end

section
/-! PROOFS. The command framer (spec/41_command_framer.md): `Issue` for every card (O9), `READ_STATUS` (O19), the
application command (O27), the refusals (O22) and the busy-waits (O43). -/

namespace Sys2Proof.Machine
open Sys2Proof.Claims

/-! ## Issuing a command (R133) -/

theorem one_le_respLen (k : Cmd) : 1 ≤ respLen k := by
  cases k <;> decide

/-- The first byte of a response and the rest of it, read by count, are the response (R78). -/
theorem map_range_respLen (k : Cmd) (f : Nat → Byte) (m : Nat) :
    f m :: (List.range (respLen k - 1)).map (fun i => f (m + 1 + i))
      = (List.range (respLen k)).map fun i => f (m + i) := by
  obtain ⟨n, hn⟩ := Nat.exists_eq_add_of_le' (one_le_respLen k)
  simp only [hn, Nat.add_sub_cancel, List.range_succ_eq_map, List.map_cons, List.map_map, Nat.add_zero]
  simp only [Function.comp_def, Nat.succ_eq_add_one, Nat.add_assoc, Nat.add_comm 1]

/-- Settles O9: the poll ends at the first answer that is not idle, or at the end of its budget, and the rest of the
response is the next answers by count. -/
theorem issueTransaction : Obligations.IssueTransaction := by
  intro k arg s sent
  refine ⟨frame_length .., ?_⟩
  have hissue : issue k arg s = issueRest k (pollNonIdle s.cfg.respPollMax sent) := issue_eq k arg s
  obtain ⟨m, hm, hidle, hfirst, hpoll⟩ | ⟨hidle, hpoll⟩ := poll_cases s.cfg.respPollMax sent
  · refine .inl ⟨m, hm, hidle, hfirst, ?_⟩
    have hcount : m + 1 + (respLen k - 1) = m + respLen k := by have := one_le_respLen k; omega
    have hrest : (List.range (respLen k - 1)).map (answer (received (m + 1) sent))
        = (List.range (respLen k - 1)).map fun i => answer s (m + 1 + i) :=
      List.map_congr_left fun i _ => answer_received sent (m + 1) i
    rw [hissue, hpoll, issueRest, recvN_eq, received_received, hcount, hrest, ← map_range_respLen]
    rfl
  · exact .inr ⟨hidle, by rw [hissue, hpoll]; rfl⟩

/-- The rest of a response has the length its command fixes (R75). -/
theorem length_of_issue {k : Cmd} {arg : Word} {s u : State} {r : Byte} {bs : List Byte}
    (h : issue k arg s = (.response r bs, u)) : bs.length = respLen k - 1 := by
  rw [issue_eq] at h
  generalize pollNonIdle s.cfg.respPollMax (afterSend k arg s) = o at h
  obtain ⟨_ | b, v⟩ := o
  · cases h
  · cases h
    exact recvN_length ..

/-! ## `READ_STATUS` (R160) -/

/-- Two bytes read big-endian, as 16 bits (R55). -/
theorem ofBe_pair (r b : Byte) : (ofBe [r, b]).extractLsb' 0 16 = r ++ b := by
  have hzeros : ofBe [r, b] = ofBe [0, 0, r, b] := rfl
  rw [hzeros, ofBe_eq_append, BitVec.append_assoc]
  exact BitVec.extractLsb'_append_eq_right

/-- Settles O19: the command's meaning is `READ_STATUS`'s end, and its response has two bytes. -/
theorem readStatusResult : Obligations.ReadStatusResult := by
  refine ⟨fun s hidle => whenIdle_of_idle hidle, fun arg crc s hp => ?_⟩
  have hexec : exec (.cmdSendStatus arg crc) s = .next (finishReadStatus (issue .sendStatus arg s)) :=
    exec_posCmd (k := .sendStatus) hp rfl arg crc
  rw [hexec]
  cases hissue : issue .sendStatus arg s with
  | mk o u =>
    cases o with
    | timeout => exact .inl ⟨u, rfl, rfl⟩
    | response r bs =>
      obtain ⟨b, rfl⟩ := List.length_eq_one_iff.1 (length_of_issue hissue)
      refine .inr ⟨r, b, u, rfl, ?_⟩
      rw [finishReadStatus, ofBe_pair]
      rfl

/-! ## The application command (R136, R153, R177) -/

theorem exec_acmd41 {harg : Word} {k : Nat} {s : State} (hp : s.opState = .busy (.appPrefix harg k)) (arg : Word)
    (crc : BitVec 7) : exec (.acmd41 arg crc) s = .next (step4Attempt harg k (issueApp .appOpCond arg s)) := by
  simp only [exec, execAcmd41, hp]

theorem r1PrefixOk_iff {p : Byte} : r1PrefixOk p = true ↔ p &&& 0xFE = 0 := beq_iff_eq

/-- Settles O27: the target is issued only after a first response that passes, and each response is parsed by its own rule. -/
theorem applicationCommandResult : Obligations.ApplicationCommandResult := by
  intro arg harg k crc s hp
  rw [exec_acmd41 hp, issueApp]
  congr 1
  obtain ⟨_ | ⟨p, _⟩, u⟩ := issue .appPrefix 0 s
  · rfl
  · simp only [r1PrefixOk_iff]
    by_cases hok : p &&& 0xFE = 0
    · simp only [hok, if_true]
      obtain ⟨_ | ⟨r, _⟩, v⟩ := issue .appOpCond arg u <;> rfl
    · simp only [hok, if_false]
      rfl

/-! ## What is refused (R96, R130, R310) -/

/-- A host operation that has a meaning runs only while no other does. -/
theorem exec_of_hostOp_busy {i : Instr} {s : State} {p : Pos} (hs : s.opState = .busy p)
    (hi : i ∈ [Instr.init, .readBlock, .writeBlock, .readBlocks, .writeBlocks, .readStatus, .getIsMmc, .getBlockLen,
      .getIsHc]) : exec i s = .refused .startWhileBusy := by
  have hbusy (o : Host.Outcome State Fault Refusal) : whenIdle s o = .refused .startWhileBusy := by
    simp only [whenIdle, hs]
  simp only [List.mem_cons, List.not_mem_nil, or_false] at hi
  obtain rfl | rfl | rfl | rfl | rfl | rfl | rfl | rfl | rfl := hi <;> exact hbusy _

/-- A command or token out of its place is refused by that name, in every state. -/
theorem exec_of_not_place {i : Instr} {s : State} (hi : i.fmt ≠ .hostOp)
    (h : ∀ p, s.opState = .busy p → ¬ Place i p) : exec i s = .refused .outOfPlace := by
  cases i with
  | reserved0 | init | readBlock | writeBlock | readBlocks | writeBlocks | readStatus | getIsMmc | getBlockLen | getIsHc
  | reservedA | eraseOutOfScope | getSizeOutOfScope | reservedD | reservedE | reservedF => exact absurd rfl hi
  | cmdReadOcr | tokStartSingle =>
    simp only [exec, execCmdReadOcr, execTokStartSingle]
    split
    · next hq => exact absurd (by trivial) (h _ hq)
    · next hq => exact absurd (by trivial) (h _ hq)
    · rfl
  | cmdReset | cmdSendOpCond | cmdIfCond | cmdStopTransmission | cmdSendStatus | cmdSetBlockLen | cmdReadSingle
  | cmdReadMulti | cmdWriteSingle | cmdWriteMulti | cmdAppOpCond | cmdAppPrefix | acmd41 | tokStartMultiWr
  | tokStartMultiRd | tokStopMultiWr | errorToken | dataRespAccepted | dataRespCrcRejected | dataRespWriteRejected =>
    simp only [exec, execCmdReset, execCmdSendOpCond, execCmdIfCond, execCmdStopTransmission, execCmdSendStatus,
      execCmdSetBlockLen, execCmdReadSingle, execCmdReadMulti, execCmdWriteSingle, execCmdWriteMulti,
      execCmdAppOpCond, execCmdAppPrefix, execAcmd41, execTokStartMultiWr, execTokStartMultiRd, execTokStopMultiWr,
      execErrorToken, execDataRespAccepted, execDataRespCrcRejected, execDataRespWriteRejected]
    split
    · next hq => exact absurd (by trivial) (h _ hq)
    · rfl

/-- Settles O22: each instruction tests its position, each host operation that none runs. -/
theorem outOfPlaceRefused : Obligations.OutOfPlaceRefused :=
  fun _ _ => ⟨exec_of_not_place, fun hi _ hs => exec_of_hostOp_busy hs hi⟩

/-! ## The busy-waits (R139) -/

theorem busyWait_eq (done : State → State) (s : State) : busyWait done s =
    if answer s 0 = s.cfg.idleFill then done (received 1 s) else received 1 s := by
  rw [busyWait, recv_eq]

/-- The end of a block operation, in the claims' words. -/
theorem endOp_blockIO_eq_stopped (err : Option ErrorKind) (s : State) : endOp .blockIO err s = stopped err s := by
  cases err <;> rfl

/-- The busy-wait of a stop sequence (R229, R235). -/
theorem busyWait_endOp (err : Option ErrorKind) (s : State) : busyWait (endOp .blockIO err) s =
    if answer s 0 = s.cfg.idleFill then stopped err (received 1 s) else received 1 s := by
  rw [busyWait_eq, endOp_blockIO_eq_stopped]

/-- Settles O43: each of the three positions is the one busy-wait with its own end. -/
theorem busyWaitStep : Obligations.BusyWaitStep := by
  intro s hu
  exact ⟨fun x b hp => (step_unhurried hu hp).trans (congrArg _ (busyWait_eq _ s)),
    fun err hp => (step_unhurried hu hp).trans (congrArg _ (busyWait_endOp err s)),
    fun err hp => (step_unhurried hu hp).trans (congrArg _ (busyWait_endOp err s))⟩

/-- A byte that is not `IDLE_FILL` is all that a step of a busy-wait receives. -/
theorem step_busyWaits {s : State} {p : Pos} (hu : Unhurried s) (hp : s.opState = .busy p) (hb : BusyWaits p)
    (h : answer s 0 ≠ s.cfg.idleFill) : step s = .next (received 1 s) := by
  obtain ⟨hwrite, hreadStop, hwriteStop⟩ := busyWaitStep s hu
  cases p with
  | writeBusy x b => rw [hwrite x b hp, if_neg h]
  | readStopBusy err => rw [hreadStop err hp, if_neg h]
  | writeStopBusy err => rw [hwriteStop err hp, if_neg h]
  | _ => exact hb.elim

/-- A card that stays busy is received from and nothing else happens (R265, R313). -/
theorem runs_busyWaits {n : Nat} {s : State} {p : Pos} (hu : Unhurried s) (hp : s.opState = .busy p) (hb : BusyWaits p)
    (h : ∀ i, i < n → answer s i ≠ s.cfg.idleFill) : runs n s = .next (received n s) := by
  induction n generalizing s with
  | zero => rw [received_zero]; rfl
  | succ n ih =>
    have hrest : runs n (received 1 s) = .next (received n (received 1 s)) :=
      ih hu hp fun i hi => by
        rw [answer_received, Nat.add_comm]
        exact h (i + 1) (Nat.succ_lt_succ hi)
    rw [runs_succ, step_busyWaits hu hp hb (h 0 n.succ_pos)]
    simp only [hrest, received_received, Nat.add_comm 1]

end Sys2Proof.Machine
end

section
/-! PROOFS. That only a busy-wait can hang (O55): in every state a running operation's turn is its position's own
step or a whole attempt of the SD loop, and each of these, but for a busy-wait, moves the position or ends. -/

namespace Sys2Proof.Machine
open Sys2Proof.Claims

/-! ## The turn, in every state -/

/-- What is in its place at a position that issues a command: that command, or the pair of R153. -/
theorem ofCmd_of_place {i : Instr} {p : Pos} {k : Cmd} (hk : posCmd p = some k) (h : Place i p) :
    (∃ arg crc, i = .ofCmd k arg crc) ∨ ∃ harg n arg crc, p = .appPrefix harg n ∧ i = .acmd41 arg crc := by
  unfold Place at h
  split at h
  case h_6 => exact .inr ⟨_, _, _, _, rfl, rfl⟩
  case h_1 | h_2 | h_3 | h_4 | h_5 | h_7 | h_8 | h_9 | h_10 | h_15 => cases hk; exact .inl ⟨_, _, rfl⟩
  case h_11 | h_12 | h_13 | h_14 => simp only [posCmd, h] at hk; cases hk; exact .inl ⟨_, _, rfl⟩
  case h_25 => exact h.elim
  all_goals cases hk

/-- An instruction that goes on is in its place. -/
theorem place_of_exec {i : Instr} {p : Pos} {s t : State} (hs : s.opState = .busy p) (h : exec i s = .next t) :
    Place i p := by
  by_contra hpl
  obtain ⟨r, hr⟩ := exec_refused_of_not_place hpl
  rw [hr s hs] at h
  cases h

theorem turn_fetchPacket_cases {p : Pos} {k : Cmd} {s t : State} (hs : s.opState = .busy p) (hk : posCmd p = some k)
    (h : turnOutcome (fetchPacket s) = .next t) : (∃ arg, ownStep arg s p = .next t)
    ∨ ∃ harg n arg, p = .appPrefix harg n ∧ t = step4Attempt harg n (issueApp .appOpCond arg s) := by
  cases hd : decode s.cfg .packet s.pkt with
  | error e => simp only [fetchPacket, hd, turnOutcome, reduceCtorEq] at h
  | ok i =>
    rw [turn_fetchPacket hd] at h
    obtain ⟨arg, crc, rfl⟩ | ⟨harg, n, arg, crc, rfl, rfl⟩ := ofCmd_of_place hk (place_of_exec hs h)
    · exact .inl ⟨arg, (exec_posCmd hs hk arg crc).symm.trans h⟩
    · cases (exec_acmd41 hs arg crc).symm.trans h
      exact .inr ⟨harg, n, arg, rfl, rfl⟩

/-- The token that is in its place before a block of a write (R220, R234). -/
theorem place_writeFrame {i : Instr} {x : Xfer} (h : Place i (.writeFrame x)) :
    i = if x.multi then .tokStartMultiWr else .tokStartSingle := by
  cases i with
  | tokStartSingle | tokStartMultiWr => rw [show x.multi = _ from h]; rfl
  | _ => exact h.elim

theorem place_writeStop {i : Instr} {err : Option ErrorKind} (h : Place i (.writeStop err)) : i = .tokStopMultiWr := by
  cases i with
  | tokStopMultiWr => rfl
  | _ => exact h.elim

theorem exec_tokStopMultiWr {err : Option ErrorKind} {s : State} (hs : s.opState = .busy (.writeStop err)) :
    exec .tokStopMultiWr s = .next (setPos (.writeStopBusy err) (sendAll [s.cfg.tokStopMultiWr] s)) := by
  simp only [exec, execTokStopMultiWr, hs]

/-- A sent token that goes on decodes to an instruction in its place, whatever the configuration. -/
theorem place_of_fetchTxToken {tok : Byte} {p : Pos} {s t : State} (hs : s.opState = .busy p)
    (h : turnOutcome (fetchTxToken tok s) = .next t) : ∃ i, Place i p ∧ exec i s = .next t := by
  cases hd : decode s.cfg .txToken [tok] with
  | error e => simp only [fetchTxToken, hd, turnOutcome, reduceCtorEq] at h
  | ok i =>
    rw [turn_fetchTxToken hd] at h
    exact ⟨i, place_of_exec hs h, h⟩

/-- In every state a turn that goes on is the position's own step, or a whole attempt of the SD loop. -/
theorem turn_cases {p : Pos} {s t : State} (hs : s.opState = .busy p) (h : turnOutcome (fetchAt p s) = .next t) :
    (∃ arg, ownStep arg s p = .next t)
    ∨ ∃ harg n arg, p = .appPrefix harg n ∧ t = step4Attempt harg n (issueApp .appOpCond arg s) := by
  cases hk : posCmd p with
  | some k =>
    rw [fetchAt_of_issues (issues_of_posCmd hk)] at h
    exact turn_fetchPacket_cases hs hk h
  | none =>
    refine .inl ⟨0, ?_⟩
    cases p with
    | reset | ifCond | ocrFamily | appPrefix | appOpCond | opCond | ocrCapacity | setBlockLen | sendStatus | readCmd
    | writeCmd | readStop => cases hk
    | step4 | step5 | step6 | dataResp | writeBusy | readStopBusy | writeStopBusy => exact h
    | readToken => exact (turn_readToken hs).symm.trans h
    | writeFrame =>
      obtain ⟨i, hpl, hexec⟩ := place_of_fetchTxToken hs h
      obtain rfl := place_writeFrame hpl
      exact (exec_startToken_writeFrame hs).symm.trans hexec
    | writeVerdict => exact (turn_writeVerdict hs).symm.trans h
    | writeStop =>
      obtain ⟨i, hpl, hexec⟩ := place_of_fetchTxToken hs h
      obtain rfl := place_writeStop hpl
      exact (exec_tokStopMultiWr hs).symm.trans hexec

/-! ## The steps of `INIT` and the end of `READ_STATUS` move -/

@[simp] theorem raiseInit_opState (e : ErrorKind) (s : State) : (raiseInit e s).opState = .idle := rfl
@[simp] theorem initReady_opState (s : State) : (initReady s).opState = .idle := rfl
@[simp] theorem step2Pass_opState (s : State) : (step2Pass s).opState = .busy .ocrFamily := rfl
@[simp] theorem step3Pass_opState (s : State) : (step3Pass s).opState = .busy .step4 := rfl
@[simp] theorem step4Pass_opState (s : State) : (step4Pass s).opState = .busy .step5 := rfl
@[simp] theorem step5Pass_opState (c : CapClass) (s : State) : (step5Pass c s).opState = .busy .step6 := rfl

@[simp] theorem prefixFailed_opState (p : Byte) (s : State) : (prefixFailed p s).opState = .idle := by
  unfold prefixFailed
  split <;> rfl

@[simp] theorem finishReadStatus_opState (o : Issued × State) : (finishReadStatus o).opState = .idle := by
  obtain ⟨_ | ⟨r, bs⟩, u⟩ := o <;> rfl

theorem step1Reset_moves (o : Issued × State) : (step1Reset o).opState ≠ .busy .reset := by
  obtain ⟨_ | ⟨r, bs⟩, u⟩ := o
  · nofun
  · simp only [step1Reset]
    split_ifs <;> simp

theorem step2Voltage_moves (o : Issued × State) : (step2Voltage o).opState ≠ .busy .ifCond := by
  obtain ⟨_ | ⟨r, bs⟩, u⟩ := o
  · nofun
  · simp only [step2Voltage]
    split_ifs <;> simp

theorem step3Family_moves (o : Issued × State) : (step3Family o).opState ≠ .busy .ocrFamily := by
  obtain ⟨_ | ⟨r, bs⟩, u⟩ := o
  · nofun
  · simp only [step3Family]
    split_ifs <;> simp

theorem beginStep4_moves {s t : State} (h : beginStep4 s = .next t) : t.opState ≠ .busy .step4 := by
  obtain ⟨f, -, h⟩ := withReg_eq_next.1 h
  cases f with
  | mmc => cases h; nofun
  | sd =>
    obtain ⟨g, -, h⟩ := withReg_eq_next.1 h
    cases h
    nofun

theorem step4Prefix_moves (harg : Word) (k : Nat) (o : Issued × State) :
    (step4Prefix harg k o).opState ≠ .busy (.appPrefix harg k) := by
  obtain ⟨_ | ⟨r, bs⟩, u⟩ := o
  · nofun
  · simp only [step4Prefix]
    split_ifs <;> simp

/-- A target's response leads to another attempt, whose number is its own, or out of the loop (R177). -/
theorem step4Target_moves (harg : Word) (k : Nat) (r : Byte) (s : State) :
    (step4Target harg k r s).opState ≠ .busy (.appPrefix harg k)
    ∧ (step4Target harg k r s).opState ≠ .busy (.appOpCond harg k) := by
  unfold step4Target
  split_ifs <;> simp

theorem step4AppOpCond_moves (harg : Word) (k : Nat) (o : Issued × State) :
    (step4AppOpCond harg k o).opState ≠ .busy (.appOpCond harg k) := by
  obtain ⟨_ | ⟨r, bs⟩, u⟩ := o
  · nofun
  · exact (step4Target_moves harg k r u).2

theorem step4Attempt_moves (harg : Word) (k : Nat) (o : AppIssued × State) :
    (step4Attempt harg k o).opState ≠ .busy (.appPrefix harg k) := by
  obtain ⟨_ | p | r, u⟩ := o
  · nofun
  · simp [step4Attempt]
  · exact (step4Target_moves harg k r u).1

theorem step4Fallback_moves (k : Nat) (o : Issued × State) : (step4Fallback k o).opState ≠ .busy (.opCond k) := by
  obtain ⟨_ | ⟨r, bs⟩, u⟩ := o
  · nofun
  · simp only [step4Fallback]
    split_ifs <;> simp

theorem beginStep5_moves {s t : State} (h : beginStep5 s = .next t) : t.opState ≠ .busy .step5 := by
  obtain ⟨g, -, h⟩ := withReg_eq_next.1 h
  cases g <;> cases h <;> nofun

theorem step5Ocr_moves (k : Nat) (o : Issued × State) : (step5Ocr k o).opState ≠ .busy (.ocrCapacity k) := by
  obtain ⟨_ | ⟨r, bs⟩, u⟩ := o
  · nofun
  · simp only [step5Ocr]
    split_ifs <;> simp

theorem beginStep6_moves {s t : State} (h : beginStep6 s = .next t) : t.opState ≠ .busy .step6 := by
  obtain ⟨c, -, h⟩ := withReg_eq_next.1 h
  cases c <;> cases h <;> nofun

theorem step6SetLen_moves (o : Issued × State) : (step6SetLen o).opState ≠ .busy .setBlockLen := by
  obtain ⟨_ | ⟨r, bs⟩, u⟩ := o
  · nofun
  · simp only [step6SetLen]
    split_ifs <;> simp

/-! ## The steps of a block operation move -/

/-- A read goes on at the first attempt of its block, at the stop command, or not at all (R215, R228). -/
theorem readNext_moves {p : Pos} (x : Xfer) (s : State) (htoken : .readToken x 1 ≠ p) (hstop : .readStop none ≠ p) :
    (readNext x s).opState ≠ .busy p := by
  unfold readNext
  split_ifs <;> simp [goReadStop, htoken, hstop]

theorem readFail_moves {p : Pos} (x : Xfer) (e : ErrorKind) (s : State) (hstop : .readStop (some e) ≠ p) :
    (readFail x e s).opState ≠ .busy p := by
  unfold readFail
  split_ifs <;> simp [goReadStop, hstop]

theorem writeNext_moves {p : Pos} (x : Xfer) (s : State) (hframe : .writeFrame x ≠ p)
    (hstop : .writeStop none ≠ p) : (writeNext x s).opState ≠ .busy p := by
  unfold writeNext
  split_ifs <;> simp [hframe, hstop]

theorem writeFail_moves {p : Pos} (x : Xfer) (e : ErrorKind) (s : State) (hstop : .writeStop (some e) ≠ p) :
    (writeFail x e s).opState ≠ .busy p := by
  unfold writeFail
  split_ifs <;> simp [hstop]

theorem blockCmdResp_moves {p : Pos} {go : State → State} (hgo : ∀ u, (go u).opState ≠ .busy p)
    (o : Issued × State) : (blockCmdResp go o).opState ≠ .busy p := by
  obtain ⟨_ | ⟨r, bs⟩, u⟩ := o
  · nofun
  · simp only [blockCmdResp]
    split
    · exact hgo u
    · nofun

theorem next_ne (x : Xfer) : x.next ≠ x := fun h => Nat.succ_ne_self x.block (congrArg Xfer.block h)

theorem recvPayload_moves (x : Xfer) (k : Nat) (bl : Word) (s : State) :
    (recvPayload x bl s).opState ≠ .busy (.readToken x k) := by
  unfold recvPayload
  dsimp only
  split_ifs
  · exact readNext_moves _ _ (fun h => next_ne x (Pos.readToken.inj h).1) nofun
  · exact readFail_moves _ _ _ nofun

theorem tokenReceived_moves {x : Xfer} {k : Nat} {b : Byte} {s t : State} (h : tokenReceived x k b s = .next t) :
    t.opState ≠ .busy (.readToken x k) := by
  unfold tokenReceived at h
  split at h
  · obtain ⟨bl, -, h⟩ := withReg_eq_next.1 h
    cases h
    exact recvPayload_moves x k bl s
  · cases h
    split_ifs
    · exact readFail_moves _ _ _ nofun
    · unfold tokenSkipped
      split_ifs
      · simp
      · exact readFail_moves _ _ _ nofun

theorem sendFrame_moves {tok : Byte} {x : Xfer} {s t : State} (h : sendFrame tok x s = .next t) :
    t.opState ≠ .busy (.writeFrame x) := by
  obtain ⟨bl, -, h⟩ := withReg_eq_next.1 h
  obtain ⟨p, -, h⟩ := withReg_eq_next.1 h
  cases h
  nofun

theorem pollDataResp_moves (x : Xfer) (k : Nat) (s : State) :
    (pollDataResp x k s).opState ≠ .busy (.dataResp x k) := by
  unfold pollDataResp
  dsimp only
  split_ifs
  · nofun
  · simp
  · exact writeFail_moves _ _ _ nofun

theorem verdict_moves (x : Xfer) (b : Byte) (s : State) : (verdict x b s).opState ≠ .busy (.writeVerdict x b) := by
  unfold verdict
  split_ifs
  · exact writeNext_moves _ _ nofun nofun
  all_goals exact writeFail_moves _ _ _ nofun

theorem readStopIssued_moves (err : Option ErrorKind) (o : Issued × State) :
    (readStopIssued err o).opState ≠ .busy (.readStop err) := by
  obtain ⟨_ | ⟨r, bs⟩, u⟩ := o <;> nofun

/-! ## A step moves the position (R21) -/

/-- At a position that is no busy-wait the own step moves the position or ends the operation. -/
theorem ownStep_moves {p : Pos} {s t : State} {arg : Word} (hb : ¬ BusyWaits p) (h : ownStep arg s p = .next t) :
    t.opState ≠ .busy p := by
  cases p with
  | writeBusy | readStopBusy | writeStopBusy => exact absurd trivial hb
  | step4 => exact beginStep4_moves h
  | step5 => exact beginStep5_moves h
  | step6 => exact beginStep6_moves h
  | readToken => exact tokenReceived_moves h
  | writeFrame => exact sendFrame_moves h
  | reset => cases h; exact step1Reset_moves _
  | ifCond => cases h; exact step2Voltage_moves _
  | ocrFamily => cases h; exact step3Family_moves _
  | appPrefix => cases h; exact step4Prefix_moves _ _ _
  | appOpCond => cases h; exact step4AppOpCond_moves _ _ _
  | opCond => cases h; exact step4Fallback_moves _ _
  | ocrCapacity => cases h; exact step5Ocr_moves _ _
  | setBlockLen => cases h; exact step6SetLen_moves _
  | sendStatus => cases h; simp
  | readCmd x => cases h; exact blockCmdResp_moves (p := .readCmd x) (fun u => readNext_moves x u nofun nofun) _
  | writeCmd x => cases h; exact blockCmdResp_moves (p := .writeCmd x) (fun u => writeNext_moves x u nofun nofun) _
  | dataResp => cases h; exact pollDataResp_moves _ _ _
  | writeVerdict => cases h; exact verdict_moves _ _ _
  | readStop => cases h; exact readStopIssued_moves _ _
  | writeStop => cases h; nofun

/-- In every state the block's own next step at a position that is no busy-wait moves it or ends the operation. -/
theorem turn_moves {p : Pos} {s t : State} (hs : s.opState = .busy p) (hb : ¬ BusyWaits p)
    (h : turnOutcome (fetchAt p s) = .next t) : t.opState ≠ .busy p := by
  obtain ⟨arg, hown⟩ | ⟨harg, n, arg, rfl, rfl⟩ := turn_cases hs h
  · exact ownStep_moves hb hown
  · exact step4Attempt_moves _ _ _

/-- `INIT`, `READ_STATUS` and `READ_BLOCK` contain no busy-wait (R265). -/
theorem not_busyWaits_of_busyWaitFree {p : Pos} (h : BusyWaitFree p) : ¬ BusyWaits p := by
  cases p with
  | writeBusy | readStopBusy | writeStopBusy => nomatch h
  | _ => exact id

/-- Settles O55: a busy-wait receives and stays, and every other position's own step moves. -/
theorem busyWaitHangs : Obligations.BusyWaitHangs := by
  refine ⟨fun n s p hu hp hb h => runs_busyWaits hu hp hb h, fun s t p hu hp hfree ht => ?_⟩
  rw [step_unhurried hu hp] at ht
  rw [hp]
  exact turn_moves hp (hfree.elim not_busyWaits_of_busyWaitFree id) ht

end Sys2Proof.Machine
end

section
/-! PROOFS. Negotiation (spec/42_negotiation.md): what each command of `INIT` and each beginning of its steps 4, 5 and 6
does, in the claims' words (O14, O23-O26, O29-O31). -/

namespace Sys2Proof.Machine
open Sys2Proof.Claims

/-! ## The start and the command of each step (R171-R182) -/

/-- Settles O14: the start's clock request and its select are the two events. -/
theorem initStarts : Obligations.InitStarts := by
  intro s hidle
  have hbus : s.bus ++ [.setClock s.cfg.clkSlow] ++ [.select] = s.bus ++ [.setClock s.cfg.clkSlow, .select] :=
    List.append_assoc ..
  rw [← hbus]
  exact whenIdle_of_idle hidle

/-- Settles O23: the command's meaning is step 1, by its response. -/
theorem resetCommandResult : Obligations.ResetCommandResult := by
  intro arg crc s hp
  refine (exec_posCmd (k := .reset) hp rfl arg crc).trans ?_
  rw [ownStep]
  obtain ⟨_ | ⟨r, bs⟩, u⟩ := issue .reset arg s <;> rfl

/-- Settles O24: the command's meaning is step 2, by its response. -/
theorem voltageCheckResult : Obligations.VoltageCheckResult := by
  intro arg crc s hp
  refine (exec_posCmd (k := .ifCond) hp rfl arg crc).trans ?_
  rw [ownStep]
  obtain ⟨_ | ⟨r, bs⟩, u⟩ := issue .ifCond arg s <;> rfl

/-- Settles O25: in step 3 the OCR read's meaning is the choice of the family. -/
theorem familyResult : Obligations.FamilyResult := by
  intro arg crc s hp
  refine (exec_posCmd (k := .readOcr) hp rfl arg crc).trans ?_
  rw [ownStep]
  obtain ⟨_ | ⟨r, bs⟩, u⟩ := issue .readOcr arg s <;> rfl

/-! ## Step 4 (R177, R178) -/

theorem opCondArg_eq (g : Generation) : opCondArg g = if g = .v2 then 0x40000000 else 0 := by
  cases g <;> rfl

theorem step_step4_sd {s : State} {g : Generation} (hu : Unhurried s) (hp : s.opState = .busy .step4)
    (hf : s.family = some .sd) (hg : s.generation = some g) :
    step s = .next (goCmd (.appPrefix (opCondArg g) 1) .appPrefix 0 s) := by
  simp only [step_unhurried hu hp, fetchAt, turnOutcome, beginStep4, hf, hg, withReg]

theorem step_step4_mmc {s : State} (hu : Unhurried s) (hp : s.opState = .busy .step4) (hf : s.family = some .mmc) :
    step s = .next (goCmd (.opCond 1) .sendOpCond 0 s) := by
  simp only [step_unhurried hu hp, fetchAt, turnOutcome, beginStep4, hf, withReg]

/-- Settles O26: the loop's argument is that of the generation, and each of its two commands is its parse. -/
theorem sdLoop : Obligations.SdLoop := by
  refine ⟨fun s g hu hp hf hg => ?begins, fun arg harg k crc s hp => ?pre, fun arg harg k crc s hp => ?target⟩
  case begins =>
    rw [← opCondArg_eq]
    exact step_step4_sd hu hp hf hg
  case pre =>
    refine (exec_posCmd (k := .appPrefix) hp rfl arg crc).trans ?_
    rw [ownStep]
    obtain ⟨_ | ⟨r, bs⟩, u⟩ := issue .appPrefix arg s
    · rfl
    · simp only [step4Prefix, r1PrefixOk_iff]
      rfl
  case target =>
    refine (exec_posCmd (k := .appOpCond) hp rfl arg crc).trans ?_
    rw [ownStep]
    obtain ⟨_ | ⟨r, bs⟩, u⟩ := issue .appOpCond arg s <;> rfl

/-- Settles O29: the loop's first command, and the parse of each. -/
theorem fallbackLoop : Obligations.FallbackLoop := by
  refine ⟨fun s hu hp hf => step_step4_mmc hu hp hf, fun arg k crc s hp => ?_⟩
  refine (exec_posCmd (k := .sendOpCond) hp rfl arg crc).trans ?_
  rw [ownStep]
  obtain ⟨_ | ⟨r, bs⟩, u⟩ := issue .sendOpCond arg s <;> rfl

/-! ## Steps 5 and 6 (R180-R183) -/

theorem step_step5_legacy {s : State} (hu : Unhurried s) (hp : s.opState = .busy .step5)
    (hg : s.generation = some .legacy) : step s = .next (step5Pass .standard s) := by
  simp only [step_unhurried hu hp, fetchAt, turnOutcome, beginStep5, hg, withReg]

theorem step_step5_v2 {s : State} (hu : Unhurried s) (hp : s.opState = .busy .step5)
    (hg : s.generation = some .v2) : step s = .next (goCmd (.ocrCapacity 1) .readOcr 0 s) := by
  simp only [step_unhurried hu hp, fetchAt, turnOutcome, beginStep5, hg, withReg]

/-- Settles O30: step 5 begins by the generation, and each attempt of its loop is its parse. -/
theorem capacityStep : Obligations.CapacityStep := by
  refine ⟨fun s hu hp => ⟨step_step5_legacy hu hp, step_step5_v2 hu hp⟩, fun arg k crc s hp => ?_⟩
  refine (exec_posCmd (k := .readOcr) hp rfl arg crc).trans ?_
  rw [ownStep]
  obtain ⟨_ | ⟨r, bs⟩, u⟩ := issue .readOcr arg s <;> rfl

theorem step_step6_high {s : State} (hu : Unhurried s) (hp : s.opState = .busy .step6)
    (hc : s.capClass = some .high) : step s = .next (initReady s) := by
  simp only [step_unhurried hu hp, fetchAt, turnOutcome, beginStep6, hc, withReg]

theorem step_step6_standard {s : State} (hu : Unhurried s) (hp : s.opState = .busy .step6)
    (hc : s.capClass = some .standard) :
    step s = .next (goCmd .setBlockLen .setBlockLen s.cfg.blockLenOp s) := by
  simp only [step_unhurried hu hp, fetchAt, turnOutcome, beginStep6, hc, withReg]

theorem r1Ok_iff {r : Byte} : r1Ok r = true ↔ r = 0 := beq_iff_eq

/-- Settles O31: step 6 begins by the capacity class, and its command's response must be 0. -/
theorem readyStep : Obligations.ReadyStep := by
  refine ⟨fun s hu hp => ⟨step_step6_high hu hp, step_step6_standard hu hp⟩, fun arg crc s hp => ?_⟩
  refine (exec_posCmd (k := .setBlockLen) hp rfl arg crc).trans ?_
  rw [ownStep]
  obtain ⟨_ | ⟨r, bs⟩, u⟩ := issue .setBlockLen arg s
  · rfl
  · simp only [step6SetLen, r1Ok_iff]
    rfl

end Sys2Proof.Machine
end

section
/-! PROOFS. What the steps of `INIT` do to NEG_STATE and to the classification registers (O32, O33). -/

namespace Sys2Proof.Machine
open Sys2Proof.Claims

/-! ## The moves of `INIT` along NEG_STATE (R185) -/

/-- The passing transitions of NEG_STATE (R185). -/
def negPasses : List (NegState × NegState) :=
  [(.powerOn, .idle), (.idle, .voltageChecked), (.voltageChecked, .familyKnown), (.familyKnown, .negotiated),
    (.negotiated, .capacityClassified), (.capacityClassified, .ready)]

/-- The values of NEG_STATE inside `INIT` (R185). -/
def negRunning : List NegState := [.powerOn, .idle, .voltageChecked, .familyKnown, .negotiated, .capacityClassified]

/-- The codes `INIT` can fail with (R263). -/
def initErrorCodes : List (BitVec 4) := [1, 2, 3, 4, 5, 6, 15]

/-- An `InitMove` of a step at position `p` that also says which transition of NEG_STATE it is and which classification
a failure has written: it goes on inside a step of the procedure, passes one, fails, or passes the last (R171-R185). -/
inductive NegMove (p : Pos) (s : State) : State → Prop
  | goes (q : Pos) (pkt : List Byte) : NegMove p s { s with opState := .busy q, pkt := pkt }
  | passes (g : Option Generation) (f : Option Family) (c : Option CapClass) (n : NegState) (q : Pos) (pkt : List Byte)
      (hn : (s.negState, n) ∈ negPasses) :
      NegMove p s { s with generation := g, family := f, capClass := c, negState := n, opState := .busy q, pkt := pkt }
  | fails (g : Option Generation) (f : Option Family) (e : ErrorKind)
      (hg : g = s.generation ∨ p = .ifCond ∧ g = some .v2) (hf : f = s.family ∨ p = .ocrFamily ∧ f = some .sd)
      (he : e.code ∈ initErrorCodes) : NegMove p s (raiseInit e { s with generation := g, family := f })
  | readies (hn : s.negState = .capacityClassified) : NegMove p s (initReady s)

/-- A failure that writes no classification register. -/
theorem NegMove.raise (p : Pos) (s : State) (e : ErrorKind) (he : e.code ∈ initErrorCodes) :
    NegMove p s (raiseInit e s) :=
  .fails s.generation s.family e (.inl rfl) (.inl rfl) he

theorem negMove_step1Reset {o : Issued × State} (hn : o.2.negState = .powerOn) : NegMove .reset o.2 (step1Reset o) := by
  obtain ⟨_ | ⟨r, bs⟩, u⟩ := o
  · exact .raise _ _ _ (by decide)
  · simp only [step1Reset]
    split
    · exact .passes _ _ _ .idle _ _ (by rw [hn]; decide)
    · exact .raise _ _ _ (by decide)

theorem negMove_step2Voltage {o : Issued × State} (hn : o.2.negState = .idle) :
    NegMove .ifCond o.2 (step2Voltage o) := by
  have hpass : (o.2.negState, .voltageChecked) ∈ negPasses := by rw [hn]; decide
  obtain ⟨_ | ⟨r, bs⟩, u⟩ := o
  · exact .raise _ _ _ (by decide)
  · simp only [step2Voltage]
    split
    · exact .passes _ _ _ _ _ _ hpass
    split
    · exact .fails _ _ _ (.inr ⟨rfl, rfl⟩) (.inl rfl) (by decide)
    split
    · exact .fails _ _ _ (.inr ⟨rfl, rfl⟩) (.inl rfl) (by decide)
    · exact .passes _ _ _ _ _ _ hpass

theorem negMove_step3Family {o : Issued × State} (hn : o.2.negState = .voltageChecked) :
    NegMove .ocrFamily o.2 (step3Family o) := by
  have hpass : (o.2.negState, .familyKnown) ∈ negPasses := by rw [hn]; decide
  obtain ⟨_ | ⟨r, bs⟩, u⟩ := o
  · exact .raise _ _ _ (by decide)
  · simp only [step3Family]
    split
    · exact .passes _ _ _ _ _ u.pkt hpass
    split
    · exact .passes _ _ _ _ _ u.pkt hpass
    · exact .fails _ _ _ (.inl rfl) (.inr ⟨rfl, rfl⟩) (by decide)

theorem negMove_beginStep4 {s t : State} (h : beginStep4 s = .next t) : NegMove .step4 s t := by
  obtain ⟨f, -, h⟩ := withReg_eq_next.1 h
  cases f with
  | mmc => cases h; exact .goes ..
  | sd =>
    obtain ⟨g, -, h⟩ := withReg_eq_next.1 h
    cases h
    exact .goes ..

/-- Step 4 passes (R178). -/
theorem negMove_step4Pass {p : Pos} {s : State} (hn : s.negState = .familyKnown) : NegMove p s (step4Pass s) :=
  .passes _ _ _ .negotiated _ s.pkt (by rw [hn]; decide)

theorem negMove_step4Prefix {harg : Word} {k : Nat} {p : Pos} (o : Issued × State) :
    NegMove p o.2 (step4Prefix harg k o) := by
  obtain ⟨_ | ⟨r, bs⟩, u⟩ := o
  · exact .raise _ _ _ (by decide)
  · simp only [step4Prefix, prefixFailed]
    split_ifs
    · exact .goes ..
    all_goals exact .raise _ _ _ (by decide)

theorem negMove_step4AppOpCond {harg : Word} {k : Nat} {p : Pos} {o : Issued × State}
    (hn : o.2.negState = .familyKnown) : NegMove p o.2 (step4AppOpCond harg k o) := by
  obtain ⟨_ | ⟨r, bs⟩, u⟩ := o
  · exact .raise _ _ _ (by decide)
  · simp only [step4AppOpCond, step4Target]
    split_ifs
    · exact .raise _ _ _ (by decide)
    · exact negMove_step4Pass hn
    · exact .goes ..
    · exact .goes ..

theorem negMove_step4Fallback {k : Nat} {p : Pos} {o : Issued × State} (hn : o.2.negState = .familyKnown) :
    NegMove p o.2 (step4Fallback k o) := by
  obtain ⟨_ | ⟨r, bs⟩, u⟩ := o
  · exact .raise _ _ _ (by decide)
  · simp only [step4Fallback]
    split_ifs
    · exact .raise _ _ _ (by decide)
    · exact negMove_step4Pass hn
    · exact .goes ..
    · exact .raise _ _ _ (by decide)

/-- Step 5 passes (R180, R181). -/
theorem negMove_step5Pass {p : Pos} {s : State} (cap : CapClass) (hn : s.negState = .negotiated) :
    NegMove p s (step5Pass cap s) :=
  .passes _ _ _ .capacityClassified _ s.pkt (by rw [hn]; decide)

theorem negMove_beginStep5 {s t : State} (hn : s.negState = .negotiated) (h : beginStep5 s = .next t) :
    NegMove .step5 s t := by
  obtain ⟨g, -, h⟩ := withReg_eq_next.1 h
  cases g with
  | v2 => cases h; exact .goes ..
  | legacy => cases h; exact negMove_step5Pass _ hn

theorem negMove_step5Ocr {k : Nat} {p : Pos} {o : Issued × State} (hn : o.2.negState = .negotiated) :
    NegMove p o.2 (step5Ocr k o) := by
  obtain ⟨_ | ⟨r, bs⟩, u⟩ := o
  · exact .raise _ _ _ (by decide)
  · simp only [step5Ocr]
    split_ifs
    · exact .raise _ _ _ (by decide)
    · exact negMove_step5Pass _ hn
    · exact .goes ..
    · exact .raise _ _ _ (by decide)

theorem negMove_beginStep6 {s t : State} (hn : s.negState = .capacityClassified) (h : beginStep6 s = .next t) :
    NegMove .step6 s t := by
  obtain ⟨c, -, h⟩ := withReg_eq_next.1 h
  cases c with
  | standard => cases h; exact .goes ..
  | high => cases h; exact .readies hn

theorem negMove_step6SetLen {p : Pos} {o : Issued × State} (hn : o.2.negState = .capacityClassified) :
    NegMove p o.2 (step6SetLen o) := by
  obtain ⟨_ | ⟨r, bs⟩, u⟩ := o
  · exact .raise _ _ _ (by decide)
  · simp only [step6SetLen]
    split
    · exact .readies hn
    · exact .raise _ _ _ (by decide)

/-! ## A step of `INIT`, with its move -/

/-- NEG_STATE at each position of `INIT` (R172-R182). -/
def posNeg : Pos → NegState
  | .reset => .powerOn
  | .ifCond => .idle
  | .ocrFamily => .voltageChecked
  | .step4 | .appPrefix _ _ | .appOpCond _ _ | .opCond _ => .familyKnown
  | .step5 | .ocrCapacity _ => .negotiated
  | .step6 | .setBlockLen => .capacityClassified
  | _ => .failed

theorem posNeg_mem {p : Pos} (hp : p.inInit = true) : posNeg p ∈ negRunning := by
  cases p with
  | sendStatus | readCmd | readToken | writeCmd | writeFrame | dataResp | writeBusy | writeVerdict | readStop
  | readStopBusy | writeStop | writeStopBusy => cases hp
  | _ => simp [posNeg, negRunning]

/-- Under the invariant NEG_STATE is its position's, and there is no session yet (R171, R184). -/
theorem PosInv.negotiating {p : Pos} {s : State} (h : PosInv s p) (hp : p.inInit = true) :
    Negotiating (posNeg p) s := by
  cases p with
  | sendStatus | readCmd | readToken | writeCmd | writeFrame | dataResp | writeBusy | writeVerdict | readStop
  | readStopBusy | writeStop | writeStopBusy => cases hp
  | _ => exact h.1

/-- At a position of `INIT` the own step is port events and a move along NEG_STATE. -/
theorem ownStep_negMove {p : Pos} {s t : State} {arg : Word} (hp : p.inInit = true) (hn : s.negState = posNeg p)
    (h : ownStep arg s p = .next t) : ∃ u, PortOnly s u ∧ NegMove p u t := by
  have hissue : ∀ k, (issue k arg s).2.negState = posNeg p := fun k => (issue_negState k arg s).trans hn
  cases p with
  | sendStatus | readCmd | readToken | writeCmd | writeFrame | dataResp | writeBusy | writeVerdict | readStop
  | readStopBusy | writeStop | writeStopBusy => cases hp
  | step4 => exact ⟨s, .refl s, negMove_beginStep4 h⟩
  | step5 => exact ⟨s, .refl s, negMove_beginStep5 hn h⟩
  | step6 => exact ⟨s, .refl s, negMove_beginStep6 hn h⟩
  | reset => cases h; exact ⟨_, .issue .., negMove_step1Reset (hissue _)⟩
  | ifCond => cases h; exact ⟨_, .issue .., negMove_step2Voltage (hissue _)⟩
  | ocrFamily => cases h; exact ⟨_, .issue .., negMove_step3Family (hissue _)⟩
  | appPrefix => cases h; exact ⟨_, .issue .., negMove_step4Prefix _⟩
  | appOpCond => cases h; exact ⟨_, .issue .., negMove_step4AppOpCond (hissue _)⟩
  | opCond => cases h; exact ⟨_, .issue .., negMove_step4Fallback (hissue _)⟩
  | ocrCapacity => cases h; exact ⟨_, .issue .., negMove_step5Ocr (hissue _)⟩
  | setBlockLen => cases h; exact ⟨_, .issue .., negMove_step6SetLen (hissue _)⟩

/-- Under the invariant a step inside `INIT` is a host action, or port events and a move along NEG_STATE. -/
theorem step_negMove {s t : State} {p : Pos} (hi : Inv s) (hs : s.opState = .busy p) (hp : p.inInit = true)
    (ht : step s = .next t) : HostOnly s t ∨ ∃ l u, PortOnly { s with hostIn := l } u ∧ NegMove p u t := by
  obtain hh | ⟨l, hturn⟩ := step_busy_cases hs ht
  · exact .inl hh
  · obtain ⟨arg, harg⟩ := turn_eq_ownStep (hi.hostIn l) hs
    obtain ⟨hn, -⟩ := (hi.pos p hs).negotiating hp
    exact .inr ⟨l, ownStep_negMove (s := { s with hostIn := l }) hp hn (harg.symm.trans hturn)⟩

/-- The transition of a move inside `INIT` (R185). -/
theorem NegMove.transition {p : Pos} {s t : State} (h : NegMove p s t) : t.negState = s.negState
    ∨ (s.negState, t.negState) ∈ negPasses
    ∨ t.negState = .failed ∧ t.opState = .idle ∧ t.resultKind ≠ some 0 := by
  cases h with
  | goes => exact .inl rfl
  | passes _ _ _ _ _ _ hn => exact .inr (.inl hn)
  | fails _ _ e => exact .inr (.inr ⟨rfl, rfl, fun h => e.code_ne_zero (Option.some.inj h)⟩)
  | readies hn =>
    have hlast : (NegState.capacityClassified, NegState.ready) ∈ negPasses := by decide
    exact .inr (.inl (hn ▸ hlast))

/-! ## Every other step -/

theorem HostOnly.negState {s t : State} (h : HostOnly s t) : t.negState = s.negState := by
  obtain ⟨_, _, _, rfl⟩ := h
  rfl

theorem HostWrote.negState {s t : State} (h : HostWrote s t) : t.negState = s.negState := by
  cases h <;> rfl

/-- Of the starts only `INIT`'s writes NEG_STATE (R171). -/
theorem Started.negState {s t : State} {op : BitVec 4} (h : Started s op t) :
    t.negState = s.negState ∨ t.opState = .busy .reset ∧ t.negState = .powerOn := by
  cases h with
  | init => exact .inr ⟨rfl, rfl⟩
  | readStatus | accessor | failed | read | write => exact .inl rfl

theorem step_idle_negState {s t : State} (hs : s.opState = .idle) (ht : step s = .next t) :
    t.negState = s.negState ∨ t.opState = .busy .reset ∧ t.negState = .powerOn := by
  obtain hh | hw | ⟨l, op, -, -, hexec⟩ := step_idle_cases hs ht
  · exact .inl hh.negState
  · exact .inl hw.negState
  · exact (exec_hostOp_cases hexec).negState

/-- Outside `INIT` a running operation leaves NEG_STATE alone (R37, R160). -/
theorem step_notInit_negState {s t : State} {p : Pos} (hi : Inv s) (hs : s.opState = .busy p)
    (hp : p = .sendStatus ∨ p.inRead = true ∨ p.inWrite = true) (ht : step s = .next t) :
    t.negState = s.negState := by
  obtain rfl | hblock := hp
  · obtain ⟨-, -, -, -, -, -, -, hn⟩ := step_sendStatus_leaves hs ht
    exact hn
  · obtain ⟨-, -, -, -, -, hn, -⟩ := blockIOLeaves s t p hi hs hblock ht
    exact hn

/-- Settles O32: outside `INIT` only its start writes NEG_STATE, and inside it each move is one transition. -/
theorem negStateTransitions : Obligations.NegStateTransitions := by
  intro s t hi ht
  obtain hs | ⟨p, hs⟩ := idle_or_busy s
  · obtain hsame | hstart := step_idle_negState hs ht
    · exact .inl hsame
    · exact .inr (.inl ⟨hs, hstart⟩)
  obtain hp | hp := p.classes
  · obtain hh | ⟨l, u, hport, hmove⟩ := step_negMove hi hs hp ht
    · exact .inl hh.negState
    have hu : u.negState = s.negState := hport.negState
    obtain ⟨hn, -⟩ := (hi.pos p hs).negotiating hp
    obtain hsame | hpass | hfail := hmove.transition
    · exact .inl (hsame.trans hu)
    · exact .inr (.inr ⟨p, hs, hp, .inl (hu ▸ hpass)⟩)
    · exact .inr (.inr ⟨p, hs, hp, .inr ⟨hn ▸ posNeg_mem hp, hfail⟩⟩)
  · exact .inl (step_notInit_negState hi hs hp ht)

/-! ## A failed `INIT` (R184) -/

/-- What a failing move leaves of the state it failed in. -/
theorem NegMove.failed {p : Pos} {s t : State} (h : NegMove p s t) (hidle : t.opState = .idle)
    (hkind : t.resultKind ≠ some 0) : ∃ g f e, (g = s.generation ∨ p = .ifCond ∧ g = some .v2)
      ∧ (f = s.family ∨ p = .ocrFamily ∧ f = some .sd) ∧ e.code ∈ initErrorCodes
      ∧ t = raiseInit e { s with generation := g, family := f } := by
  cases h with
  | goes | passes => cases hidle
  | fails g f e hg hf he => exact ⟨g, f, e, hg, hf, he, rfl⟩
  | readies => exact absurd rfl hkind

theorem PortOnly.bus {s t : State} (h : PortOnly s t) : ∃ es, t.bus = s.bus ++ es := by
  obtain ⟨es, -, ht⟩ := h
  exact ⟨es, congrArg State.bus ht⟩

/-- Settles O33: a step that ends `INIT` with an error is a failing move, in a state without a session. -/
theorem initFailureLeaves : Obligations.InitFailureLeaves := by
  intro s t p hi hs hp ht hidle hkind
  obtain hh | ⟨l, u, hport, hmove⟩ := step_negMove hi hs hp ht
  · obtain ⟨_, _, _, rfl⟩ := hh
    cases hs.symm.trans hidle
  obtain ⟨-, hsess, hclk, hbl⟩ := hport.negotiating ((hi.pos p hs).negotiating hp)
  obtain ⟨g, f, e, hg, hf, he, rfl⟩ := hmove.failed hidle hkind
  obtain ⟨es, hes⟩ := hport.bus
  exact ⟨rfl, hsess, hclk, hbl, hport.generation ▸ hg, hport.family ▸ hf, hport.capClass,
    ⟨es, congrArg (· ++ [BusEvent.deselect]) hes⟩, e.code, he, rfl⟩

end Sys2Proof.Machine
end

section
/-! PROOFS. Whole runs of `INIT` against a card that answers at once: the loops of step 4 (O34), and two rows of R186
(O35, O36). -/

namespace Sys2Proof.Machine
open Sys2Proof.Claims

/-! ## A command whose response comes at the first poll -/

theorem runs_of_step {n : Nat} {s t : State} {o : Host.Outcome State Fault Refusal} (h : step s = .next t)
    (ho : runs n t = o) : runs (n + 1) s = o := by
  rw [runs_succ, h]
  exact ho

/-- The bus events of a command whose response comes at the first poll. -/
def exchange (c : Config) (k : Cmd) (arg : Word) (bs : List Byte) : List BusEvent :=
  (frame (c.idx k) arg).map .send ++ bs.map .recv

/-- The state after such a command, with the answers `rest` still to come (R133). -/
def replied (k : Cmd) (arg : Word) (bs rest : List Byte) (s : State) : State :=
  { s with
    pkt := frame (s.cfg.idx k) arg
    resp := bs
    cardIn := rest
    bus := s.bus ++ exchange s.cfg k arg bs }

@[simp] theorem replied_cfg (k : Cmd) (arg : Word) (bs rest : List Byte) (s : State) :
    (replied k arg bs rest s).cfg = s.cfg := rfl

/-- The block goes on at a position that issues `k` with `arg`, and the card answers it at once with `r` and `bs`. -/
structure AnswersAtOnce (p : Pos) (k : Cmd) (arg : Word) (r : Byte) (bs rest : List Byte) (s : State) : Prop where
  cfg : s.cfg.valid = true
  hostIn : s.hostIn = []
  opState : s.opState = .busy p
  cmd : posCmd p = some k
  pkt : s.pkt = frame (s.cfg.idx k) arg
  first : r ≠ s.cfg.idleFill
  length : bs.length = respLen k - 1
  cardIn : s.cardIn = r :: (bs ++ rest)

section
variable {p : Pos} {k : Cmd} {arg : Word} {r : Byte} {bs rest : List Byte} {s : State}

theorem AnswersAtOnce.issue (h : AnswersAtOnce p k arg r bs rest s) :
    issue k arg s = (.response r bs, replied k arg (r :: bs) rest s) := by
  have hpoll : 0 < s.cfg.respPollMax := Config.valid_budgets h.cfg _ (by simp)
  rw [issue_response k arg 0 r bs rest hpoll h.first h.length h.cardIn, List.append_assoc]
  rfl

/-- The step is the position's own (R21). -/
theorem AnswersAtOnce.step (h : AnswersAtOnce p k arg r bs rest s) : step s = ownStep arg s p := by
  obtain ⟨crc, hrun⟩ := fetch_packet h.cfg k arg h.pkt
  rw [step_unhurried (.inl h.hostIn) h.opState, fetchAt_of_issues (issues_of_posCmd h.cmd), hrun]
  exact exec_posCmd h.opState h.cmd arg crc

/-! ## The steps of `INIT` that pass -/

theorem step_reset (h : AnswersAtOnce .reset .reset arg r bs rest s) (hidle : r1Idle r = true) :
    step s = .next (goCmd .ifCond .ifCond (ifCondArg s.cfg)
      { replied .reset arg (r :: bs) rest s with negState := .idle }) := by
  simp [h.step, ownStep, h.issue, step1Reset, hidle]

theorem step_ifCond_legacy (h : AnswersAtOnce .ifCond .ifCond arg r bs rest s) (hill : r1Illegal r = true) :
    step s = .next (step2Pass { replied .ifCond arg (r :: bs) rest s with generation := some .legacy }) := by
  simp [h.step, ownStep, h.issue, step2Voltage, hill]

theorem step_ifCond_v2 (h : AnswersAtOnce .ifCond .ifCond arg r bs rest s) (hill : r1Illegal r = false)
    (hpattern : (ofBe bs).extractLsb' 0 8 = s.cfg.checkPattern)
    (hvoltage : (ofBe bs).extractLsb' 8 4 = s.cfg.vhsCode) :
    step s = .next (step2Pass { replied .ifCond arg (r :: bs) rest s with generation := some .v2 }) := by
  simp [h.step, ownStep, h.issue, step2Voltage, hill, hpattern, hvoltage]

theorem step_ocrFamily_mmc (h : AnswersAtOnce .ocrFamily .readOcr arg r bs rest s) (hill : r1Illegal r = true) :
    step s = .next (step3Pass { replied .readOcr arg (r :: bs) rest s with family := some .mmc }) := by
  simp [h.step, ownStep, h.issue, step3Family, hill]

theorem step_ocrFamily_sd (h : AnswersAtOnce .ocrFamily .readOcr arg r bs rest s) (hill : r1Illegal r = false)
    (hwindow : ocrVoltageWindow s.cfg (ofBe bs) = true) :
    step s = .next (step3Pass { replied .readOcr arg (r :: bs) rest s with family := some .sd }) := by
  simp [h.step, ownStep, h.issue, step3Family, hill, hwindow]

theorem step_appPrefix {harg : Word} {n : Nat} (h : AnswersAtOnce (.appPrefix harg n) .appPrefix arg r bs rest s)
    (hok : r1PrefixOk r = true) :
    step s = .next (goCmd (.appOpCond harg n) .appOpCond harg (replied .appPrefix arg (r :: bs) rest s)) := by
  simp [h.step, ownStep, h.issue, step4Prefix, hok]

theorem step_appOpCond_pass {harg : Word} {n : Nat}
    (h : AnswersAtOnce (.appOpCond harg n) .appOpCond arg r bs rest s) (hill : r1Illegal r = false)
    (hbusy : r1Idle r = false) : step s = .next (step4Pass (replied .appOpCond arg (r :: bs) rest s)) := by
  simp [h.step, ownStep, h.issue, step4AppOpCond, step4Target, hill, hbusy]

theorem step_opCond_pass {n : Nat} (h : AnswersAtOnce (.opCond n) .sendOpCond arg r bs rest s)
    (hill : r1Illegal r = false) (hbusy : r1Idle r = false) :
    step s = .next (step4Pass (replied .sendOpCond arg (r :: bs) rest s)) := by
  simp [h.step, ownStep, h.issue, step4Fallback, hill, hbusy]

theorem step_ocrCapacity_high {n : Nat} (h : AnswersAtOnce (.ocrCapacity n) .readOcr arg r bs rest s)
    (hill : r1Illegal r = false) (hup : ocrPwrUp (ofBe bs) = true) (hcap : ocrCapClass (ofBe bs) = .high) :
    step s = .next (step5Pass .high (replied .readOcr arg (r :: bs) rest s)) := by
  simp [h.step, ownStep, h.issue, step5Ocr, hill, hup, hcap]

theorem step_setBlockLen (h : AnswersAtOnce .setBlockLen .setBlockLen arg r bs rest s) (hok : r1Ok r = true) :
    step s = .next (initReady (replied .setBlockLen arg (r :: bs) rest s)) := by
  simp [h.step, ownStep, h.issue, step6SetLen, hok]

/-! ## The attempts of step 4 that find the card busy (R177-R179) -/

theorem step_appOpCond_again {harg : Word} {n : Nat}
    (h : AnswersAtOnce (.appOpCond harg n) .appOpCond arg r bs rest s) (hill : r1Illegal r = false)
    (hbusy : r1Idle r = true) (hn : n < s.cfg.initPollMax) :
    step s = .next (goCmd (.appPrefix harg (n + 1)) .appPrefix 0 (replied .appOpCond arg (r :: bs) rest s)) := by
  simp [h.step, ownStep, h.issue, step4AppOpCond, step4Target, hill, hbusy, hn]

theorem step_appOpCond_last {harg : Word} {n : Nat}
    (h : AnswersAtOnce (.appOpCond harg n) .appOpCond arg r bs rest s) (hill : r1Illegal r = false)
    (hbusy : r1Idle r = true) (hn : ¬ n < s.cfg.initPollMax) :
    step s = .next (goCmd (.opCond 1) .sendOpCond 0 (replied .appOpCond arg (r :: bs) rest s)) := by
  simp [h.step, ownStep, h.issue, step4AppOpCond, step4Target, hill, hbusy, hn]

theorem step_opCond_again {n : Nat} (h : AnswersAtOnce (.opCond n) .sendOpCond arg r bs rest s)
    (hill : r1Illegal r = false) (hbusy : r1Idle r = true) (hn : n < s.cfg.initPollMax) :
    step s = .next (goCmd (.opCond (n + 1)) .sendOpCond 0 (replied .sendOpCond arg (r :: bs) rest s)) := by
  simp [h.step, ownStep, h.issue, step4Fallback, hill, hbusy, hn]

theorem step_opCond_last {n : Nat} (h : AnswersAtOnce (.opCond n) .sendOpCond arg r bs rest s)
    (hill : r1Illegal r = false) (hbusy : r1Idle r = true) (hn : ¬ n < s.cfg.initPollMax) :
    step s = .next (raiseInit .initTimeout (replied .sendOpCond arg (r :: bs) rest s)) := by
  simp [h.step, ownStep, h.issue, step4Fallback, hill, hbusy, hn]

end

/-! ## The loops of step 4 against a busy card (R177-R179) -/

/-- A card that is busy at every attempt of the fallback loop that is left (R178, R179). -/
theorem runs_opCond_busy {rest : List Byte} (rs : List Byte) {r : Byte} {n : Nat} {s : State}
    (h : AnswersAtOnce (.opCond n) .sendOpCond 0 r [] (rs ++ rest) s) (hn : n + rs.length = s.cfg.initPollMax)
    (hrs : ∀ b ∈ r :: rs, b ≠ s.cfg.idleFill ∧ b.getLsbD 0 = true ∧ b.getLsbD 2 = false) :
    runs (rs.length + 1) s = .next (initFailed 6 { s with
      cardIn := rest
      bus := s.bus ++ ((r :: rs).map fun b => exchange s.cfg .sendOpCond 0 [b]).flatten }) := by
  induction rs generalizing r n s with
  | nil =>
    obtain ⟨-, hbusy, hill⟩ := List.forall_mem_singleton.1 hrs
    have hlast : ¬ n < s.cfg.initPollMax := by simp [← hn]
    refine runs_of_step (step_opCond_last h hill hbusy hlast) ?_
    rw [List.map_singleton, List.flatten_singleton]
    rfl
  | cons r' rs ih =>
    obtain ⟨⟨-, hbusy, hill⟩, hrs⟩ := List.forall_mem_cons.1 hrs
    obtain ⟨⟨hfirst', -⟩, -⟩ := List.forall_mem_cons.1 hrs
    rw [List.length_cons] at hn
    have hnext : AnswersAtOnce (.opCond (n + 1)) .sendOpCond 0 r' [] (rs ++ rest)
        (goCmd (.opCond (n + 1)) .sendOpCond 0 (replied .sendOpCond 0 [r] (r' :: rs ++ rest) s)) :=
      ⟨h.cfg, h.hostIn, rfl, rfl, rfl, hfirst', rfl, rfl⟩
    refine runs_of_step (step_opCond_again h hill hbusy (by omega)) ?_
    refine (ih hnext ((Nat.succ_add_eq_add_succ ..).trans hn) hrs).trans ?_
    simp [initFailed, ended, goCmd, replied]

/-- The two answers to an attempt of the SD loop that finds the card busy (R136, R177). -/
def BusyAnswers (c : Config) (r : Byte × Byte) : Prop :=
  r.1 ≠ c.idleFill ∧ r.2 ≠ c.idleFill ∧ r.1 &&& 0xFE = 0 ∧ r.2.getLsbD 0 = true ∧ r.2.getLsbD 2 = false

/-- The bus events of such an attempt: its two commands, each answered at once. -/
def busyExchange (c : Config) (harg : Word) (r : Byte × Byte) : List BusEvent :=
  exchange c .appPrefix 0 [r.1] ++ exchange c .appOpCond harg [r.2]

theorem busyExchange_eq (c : Config) (harg : Word) : busyExchange c harg = fun r =>
    (frame (c.idx .appPrefix) 0).map .send ++ [.recv r.1] ++ (frame (c.idx .appOpCond) harg).map .send
      ++ [.recv r.2] :=
  funext fun _ => (List.append_assoc ..).symm

/-- The state after such an attempt, but for what comes next. -/
def afterBusy (harg : Word) (r : Byte × Byte) (rest : List Byte) (s : State) : State :=
  { s with resp := [r.2], cardIn := rest, bus := s.bus ++ busyExchange s.cfg harg r }

theorem goCmd_replied_pair (p q : Pos) (k : Cmd) (arg harg : Word) (r : Byte × Byte) (rest : List Byte) (s : State) :
    goCmd p k arg (replied .appOpCond harg [r.2] rest (goCmd q .appOpCond harg
      (replied .appPrefix 0 [r.1] (r.2 :: rest) s))) = goCmd p k arg (afterBusy harg r rest s) := by
  simp [goCmd, replied, afterBusy, busyExchange]

section
variable {harg : Word} {n : Nat} {r : Byte × Byte} {rest : List Byte} {s : State}

/-- A busy attempt of the SD loop is two steps (R177). -/
theorem runs_sd_again {m : Nat} {o : Host.Outcome State Fault Refusal}
    (h : AnswersAtOnce (.appPrefix harg n) .appPrefix 0 r.1 [] (r.2 :: rest) s) (hr : BusyAnswers s.cfg r)
    (hn : n < s.cfg.initPollMax)
    (ho : runs m (goCmd (.appPrefix harg (n + 1)) .appPrefix 0 (afterBusy harg r rest s)) = o) :
    runs (m + 2) s = o := by
  obtain ⟨-, hfirst, hok, hbusy, hill⟩ := hr
  refine runs_of_step (step_appPrefix h (r1PrefixOk_iff.2 hok)) (runs_of_step
    (step_appOpCond_again (bs := []) ⟨h.cfg, h.hostIn, rfl, rfl, rfl, hfirst, rfl, rfl⟩ hill hbusy hn) ?_)
  rw [goCmd_replied_pair]
  exact ho

theorem runs_sd_last (h : AnswersAtOnce (.appPrefix harg n) .appPrefix 0 r.1 [] (r.2 :: rest) s)
    (hr : BusyAnswers s.cfg r) (hn : ¬ n < s.cfg.initPollMax) :
    runs 2 s = .next (goCmd (.opCond 1) .sendOpCond 0 (afterBusy harg r rest s)) := by
  obtain ⟨-, hfirst, hok, hbusy, hill⟩ := hr
  refine runs_of_step (step_appPrefix h (r1PrefixOk_iff.2 hok)) (runs_of_step
    (step_appOpCond_last (bs := []) ⟨h.cfg, h.hostIn, rfl, rfl, rfl, hfirst, rfl, rfl⟩ hill hbusy hn) ?_)
  rw [goCmd_replied_pair]
  rfl

end

/-- A card that is busy at every attempt of the SD loop that is left (R177, R179). -/
theorem runs_sd_busy {harg : Word} {rest : List Byte} (rs : List (Byte × Byte)) {r : Byte × Byte} {n : Nat} {s : State}
    (h : AnswersAtOnce (.appPrefix harg n) .appPrefix 0 r.1 [] (r.2 :: ((rs.map fun r => [r.1, r.2]).flatten ++ rest)) s)
    (hn : n + rs.length = s.cfg.initPollMax) (hrs : ∀ b ∈ r :: rs, BusyAnswers s.cfg b) :
    ∃ bs, runs (2 * (rs.length + 1)) s = .next (goCmd (.opCond 1) .sendOpCond 0 { s with
      resp := bs
      cardIn := rest
      bus := s.bus ++ ((r :: rs).map (busyExchange s.cfg harg)).flatten }) := by
  induction rs generalizing r n s with
  | nil =>
    have hlast : ¬ n < s.cfg.initPollMax := by simp [← hn]
    refine ⟨[r.2], (runs_sd_last h (List.forall_mem_singleton.1 hrs) hlast).trans ?_⟩
    rw [List.map_singleton, List.flatten_singleton]
    rfl
  | cons r' rs ih =>
    obtain ⟨hr, hrs⟩ := List.forall_mem_cons.1 hrs
    obtain ⟨⟨hfirst', -⟩, -⟩ := List.forall_mem_cons.1 hrs
    rw [List.length_cons] at hn
    have hnext : AnswersAtOnce (.appPrefix harg (n + 1)) .appPrefix 0 r'.1 []
        (r'.2 :: ((rs.map fun r => [r.1, r.2]).flatten ++ rest)) (goCmd (.appPrefix harg (n + 1)) .appPrefix 0
          (afterBusy harg r (((r' :: rs).map fun r => [r.1, r.2]).flatten ++ rest) s)) :=
      ⟨h.cfg, h.hostIn, rfl, rfl, rfl, hfirst', rfl, rfl⟩
    obtain ⟨bs, hruns⟩ := ih hnext ((Nat.succ_add_eq_add_succ ..).trans hn) hrs
    refine ⟨bs, runs_sd_again h hr (by omega) (hruns.trans ?_)⟩
    simp [goCmd, afterBusy]

/-- Settles O34: at the first attempt of either loop the attempts left are the budget. -/
theorem initAttemptBudgets : Obligations.InitAttemptBudgets := by
  intro s rest hv hin
  have hmax := one_le_initPollMax hv
  refine ⟨fun rs hp hpkt hlen hrs hcard => ?fallback, fun harg rs hp hpkt hlen hrs hcard => ?sd⟩
  case fallback =>
    obtain _ | ⟨r, rs⟩ := rs
    · exact absurd (hlen ▸ hmax) (by decide)
    obtain ⟨⟨hfirst, -⟩, -⟩ := List.forall_mem_cons.1 hrs
    rw [← hlen]
    exact runs_opCond_busy rs ⟨hv, hin, hp, rfl, hpkt, hfirst, rfl, hcard⟩ ((Nat.add_comm ..).trans hlen) hrs
  case sd =>
    obtain _ | ⟨r, rs⟩ := rs
    · exact absurd (hlen ▸ hmax) (by decide)
    obtain ⟨⟨hfirst, -⟩, -⟩ := List.forall_mem_cons.1 hrs
    obtain ⟨bs, hruns⟩ := runs_sd_busy rs ⟨hv, hin, hp, rfl, hpkt, hfirst, rfl, hcard⟩
      ((Nat.add_comm ..).trans hlen) hrs
    rw [← hlen]
    refine ⟨_, hruns, rfl, rfl, rfl, rfl, ?_⟩
    rw [busyExchange_eq]
    rfl

/-! ## Two rows of R186

Both runs take the fields of the first state as variables, so that a field of a later state is computed and never
compared with the first state's. -/

/-- Settles O35: the nine steps of a v2+ SD card with the capacity bit, each passed at its first answer. -/
theorem initNegotiatesSdHighCapacity : Obligations.InitNegotiatesSdHighCapacity := by
  intro s r1 r2 r3 p q r4 e o o' rest hidle hv hin he ho ho' hfirst hr1 hr2 hpattern hvoltage hr3 hwindow hp hq2 hq0
    hr4 hup hcap hcard
  simp only [List.mem_cons, List.not_mem_nil, or_false, forall_eq_or_imp, forall_eq] at hfirst
  obtain ⟨hf1, hf2, hf3, hfp, hfq, hf4⟩ := hfirst
  replace hcard : s.cardIn = r1 :: ([] ++ r2 :: (e ++ r3 :: (o ++ p :: ([] ++ q :: ([] ++ r4 :: (o' ++ rest)))))) := by
    simp [hcard]
  refine ⟨_, whenIdle_of_idle hidle, ?_⟩
  cases s
  dsimp only at hidle hv hin hcard hf1
  subst hidle
  refine runs_of_step (step_reset ⟨hv, hin, rfl, rfl, rfl, hf1, rfl, hcard⟩ hr1) ?_
  refine runs_of_step (step_ifCond_v2 ⟨hv, hin, rfl, rfl, rfl, hf2, he, rfl⟩ hr2 hpattern hvoltage) ?_
  refine runs_of_step (step_ocrFamily_sd ⟨hv, hin, rfl, rfl, rfl, hf3, ho, rfl⟩ hr3 hwindow) ?_
  refine runs_of_step (step_step4_sd (.inl hin) rfl rfl rfl) ?_
  refine runs_of_step (step_appPrefix ⟨hv, hin, rfl, rfl, rfl, hfp, rfl, rfl⟩ (r1PrefixOk_iff.2 hp)) ?_
  refine runs_of_step (step_appOpCond_pass ⟨hv, hin, rfl, rfl, rfl, hfq, rfl, rfl⟩ hq2 hq0) ?_
  refine runs_of_step (step_step5_v2 (.inl hin) rfl rfl) ?_
  refine runs_of_step (step_ocrCapacity_high ⟨hv, hin, rfl, rfl, rfl, hf4, ho', rfl⟩ hr4 hup (if_pos hcap)) ?_
  refine runs_of_step (step_step6_high (.inl hin) rfl rfl) (congrArg _ ?_)
  simp [initReady, endOp, step5Pass, step4Pass, step3Pass, step2Pass, setPos, goCmd, replied, initStart, select,
    exchange, resultCode, ifCondArg, hcsArg, opCondArg]

/-- Settles O36: the eight steps of a legacy MMC card, each passed at its first answer. -/
theorem initNegotiatesLegacyMmc : Obligations.InitNegotiatesLegacyMmc := by
  intro s r1 r2 r3 q e o rest hidle hv hin he ho hfirst hr1 hr2 hr3 hq2 hq0 hcard
  simp only [List.mem_cons, List.not_mem_nil, or_false, forall_eq_or_imp, forall_eq] at hfirst
  obtain ⟨hf1, hf2, hf3, hfq, hf0⟩ := hfirst
  replace hcard : s.cardIn = r1 :: ([] ++ r2 :: (e ++ r3 :: (o ++ q :: ([] ++ 0 :: ([] ++ rest))))) := by
    simp [hcard]
  refine ⟨_, whenIdle_of_idle hidle, ?_⟩
  cases s
  dsimp only at hidle hv hin hcard hf1
  subst hidle
  refine runs_of_step (step_reset ⟨hv, hin, rfl, rfl, rfl, hf1, rfl, hcard⟩ hr1) ?_
  refine runs_of_step (step_ifCond_legacy ⟨hv, hin, rfl, rfl, rfl, hf2, he, rfl⟩ hr2) ?_
  refine runs_of_step (step_ocrFamily_mmc ⟨hv, hin, rfl, rfl, rfl, hf3, ho, rfl⟩ hr3) ?_
  refine runs_of_step (step_step4_mmc (.inl hin) rfl rfl) ?_
  refine runs_of_step (step_opCond_pass ⟨hv, hin, rfl, rfl, rfl, hfq, rfl, rfl⟩ hq2 hq0) ?_
  refine runs_of_step (step_step5_legacy (.inl hin) rfl rfl) ?_
  refine runs_of_step (step_step6_standard (.inl hin) rfl rfl) ?_
  refine runs_of_step (step_setBlockLen ⟨hv, hin, rfl, rfl, rfl, hf0, rfl, rfl⟩ rfl) (congrArg _ ?_)
  simp [initReady, endOp, step5Pass, step4Pass, step3Pass, step2Pass, setPos, goCmd, replied, initStart, select,
    exchange, resultCode, ifCondArg]

end Sys2Proof.Machine
end

section
/-! PROOFS. What each command, token and verdict of a block operation does, in the claims' words (O37, O39, O40, O42,
O44, O45). -/

namespace Sys2Proof.Machine
open Sys2Proof.Claims

/-- The model's failed block of a read is the claims'. -/
theorem readFail_eq (x : Xfer) (e : ErrorKind) (s : State) : readFail x e s = readFailed x e s := rfl

/-- The model's failed block of a write is the claims'. -/
theorem writeFail_eq (x : Xfer) (e : ErrorKind) (s : State) : writeFail x e s = writeFailed x e s := rfl

/-! ## The commands (R213, R229) and the stop token (R235) -/

/-- Settles O37: each of the four commands is its position's own step, the parse of R213 and the way on. -/
theorem blockCommandResults : Obligations.BlockCommandResults := by
  intro arg crc s m j n
  constructor
  · intro hp
    have hexec := exec_posCmd hp rfl arg crc
    rw [ownStep, blockCmdResp_eq _ _ (readNext_eq _)] at hexec
    cases m <;> exact hexec
  · intro hp
    have hexec := exec_posCmd hp rfl arg crc
    rw [ownStep, blockCmdResp_eq _ _ (writeNext_eq _)] at hexec
    cases m <;> exact hexec

/-- A block error wins over the stop command's timeout (R228). -/
theorem orElse_timeout (err : Option ErrorKind) :
    (err <|> some .responseTimeout) = some (err.getD .responseTimeout) := by
  cases err <;> rfl

/-- Settles O45: the stop command's meaning by its response, and the stop token's. -/
theorem stopSequences : Obligations.StopSequences := by
  refine ⟨fun arg crc err s hp => ?_, fun err s hp => exec_tokStopMultiWr hp⟩
  refine (exec_posCmd (k := .stopTransmission) hp rfl arg crc).trans ?_
  rw [ownStep]
  obtain ⟨_ | ⟨r, bs⟩, u⟩ := issue .stopTransmission arg s
  · rw [readStopIssued, orElse_timeout]; rfl
  · rfl

/-! ## A received block (R214, R217) -/

/-- Settles O39: the token's meaning is the failed block with the priority of R217. -/
theorem errorTokenResult : Obligations.ErrorTokenResult := by
  intro b s x k hp
  simp only [exec, execErrorToken, hp]
  rfl

/-- At the token poll of a read the start token's meaning is its payload (R214). -/
theorem exec_startToken_readToken {m : Bool} {j n k : Nat} {s : State}
    (hp : s.opState = .busy (.readToken ⟨m, j, n⟩ k)) :
    exec (if m then .tokStartMultiRd else .tokStartSingle) s = startReceived ⟨m, j, n⟩ s := by
  cases m <;> simp [exec, execTokStartSingle, execTokStartMultiRd, hp]

/-- What a start token's payload comes to, by the card's coming answers (R214, R218). -/
theorem recvPayload_eq (x : Xfer) (bl : Word) (s : State) :
    recvPayload x bl s =
      if answer s bl.toNat ++ answer s (bl.toNat + 1) = crc16 ((List.range bl.toNat).map (answer s)) then
        readOn x.next { received (bl.toNat + 2) s with
          tb := Mem.write s.tb (x.block * bl.toNat) ((List.range bl.toNat).map (answer s)) }
      else readFailed x .blockCrcInvalid { received (bl.toNat + 2) s with
          tb := Mem.write s.tb (x.block * bl.toNat) ((List.range bl.toNat).map (answer s)) } := by
  simp only [recvPayload, recvN_eq, recv_eq, received_received, answer_received, crc16Check, beq_iff_eq, readNext_eq,
    readFail_eq]
  rfl

/-- Settles O40: the payload's two outcomes; a failed block's bytes are written like a good one's. -/
theorem startTokenReceivesBlock : Obligations.StartTokenReceivesBlock := by
  intro s m j n k bl hp hbl p u
  rw [exec_startToken_readToken hp, startReceived_of_some hbl, recvPayload_eq]
  refine ⟨fun hcrc => congrArg _ (if_pos hcrc), fun hcrc => ⟨_, congrArg _ (if_neg hcrc), fun a ha => ?_⟩⟩
  have hlen : ((List.range bl.toNat).map (answer s)).length = bl.toNat := by simp
  exact Mem.read_write_of_outside _ (by rwa [hlen])

/-! ## A written block (R221-R223) -/

/-- Settles O42: the poll's three outcomes, by the next answer. -/
theorem dataResponsePoll : Obligations.DataResponsePoll := by
  intro s x k hu hp
  have hstep : step s = .next (pollDataResp x k s) := step_unhurried hu hp
  rw [hstep, pollDataResp, recv_eq]
  exact ⟨fun hb => congrArg _ (if_pos hb), fun hb => congrArg _ (if_neg (not_not_intro hb))⟩

/-- The model's verdict on a block is the claims' (R222). -/
theorem verdict_eq (x : Xfer) (b : Byte) (s : State) : verdict x b s =
    if b &&& 0x1F = 0x05 then writeOn x.next s
    else if b &&& 0x1F = 0x0B then writeFailed x .blockCrcInvalid s
    else if b &&& 0x1F = 0x0D then writeFailed x .cardControllerFailure s
    else writeFailed x .unknownProtocolFault s := by
  rw [verdict, writeNext_eq]
  rfl

/-- Settles O44: each row's meaning, and the step is the verdict of the token held. -/
theorem dataResponseResults : Obligations.DataResponseResults := by
  intro hi s x b hp
  refine ⟨?_, ?_, ?_, fun hu => ?_⟩
  · simp only [exec, execDataRespAccepted, hp, writeNext_eq]
    rfl
  · simp only [exec, execDataRespCrcRejected, hp, writeFail_eq]
  · simp only [exec, execDataRespWriteRejected, hp, writeFail_eq]
  · exact (step_unhurried hu hp).trans ((turn_writeVerdict hp).trans (congrArg _ (verdict_eq x b s)))

end Sys2Proof.Machine
end

section
/-! PROOFS. The phases of a block operation against a card whose answers are listed: its command, its polls, its
blocks, its busy-waits and its stop sequence (spec/43_block_io.md R213-R235).

The configuration and the block length are variables of their own here, so that no field of a state that several moves
have built is compared with the first state's. -/

namespace Sys2Proof.Machine
open Sys2Proof.Claims

/-! ## Runs and listed answers -/

theorem runs_append {m n : Nat} {s t : State} {o : Host.Outcome State Fault Refusal} (h : runs m s = .next t)
    (ho : runs n t = o) : runs (m + n) s = o := by
  induction m generalizing s with
  | zero => cases h; rwa [Nat.zero_add]
  | succ m ih =>
    rw [runs_succ] at h
    rw [Nat.add_right_comm, runs_succ]
    cases hs : step s with
    | next u => rw [hs] at h; exact ih h
    | fault r | refused r => rw [hs] at h; cases h

theorem runs_one {s t : State} (h : step s = .next t) : runs 1 s = .next t := runs_of_step h rfl

theorem answer_zero_of_listed {b : Byte} {rest : List Byte} {s : State} (h : s.cardIn = b :: rest) :
    answer s 0 = b := by
  simp [answer, h]

theorem answer_of_listed {bs rest : List Byte} {s : State} (h : s.cardIn = bs ++ rest) {i : Nat} (hi : i < bs.length) :
    answer s i = bs[i] := by
  simp [answer, h, List.getElem?_append_left hi, hi]

theorem received_of_listed {bs rest : List Byte} {s : State} (h : s.cardIn = bs ++ rest) :
    received bs.length s = took bs rest s := by
  have hboth := (recvN_eq bs.length s).symm.trans (recvN_list bs rest s h)
  exact congrArg Prod.snd hboth

theorem took_nil {rest : List Byte} {s : State} (h : s.cardIn = rest) : took [] rest s = s := by
  cases h
  simp [took]

theorem movedTo_self {p : Pos} {s : State} (h : s.opState = .busy p) : movedTo p s = s := by
  rw [movedTo, ← h]

@[simp] theorem movedTo_sessionValid (p : Pos) (s : State) : (movedTo p s).sessionValid = s.sessionValid := rfl
@[simp] theorem movedTo_tb (p : Pos) (s : State) : (movedTo p s).tb = s.tb := rfl

@[simp] theorem issuesNext_sessionValid (p : Pos) (k : Cmd) (arg : Word) (s : State) :
    (issuesNext p k arg s).sessionValid = s.sessionValid := rfl
@[simp] theorem issuesNext_tb (p : Pos) (k : Cmd) (arg : Word) (s : State) : (issuesNext p k arg s).tb = s.tb := rfl

/-- A running block operation at `p` under the valid configuration `c`, with block length `bl` and no host action to
come. -/
structure GoesOnAt (c : Config) (bl : Word) (p : Pos) (s : State) : Prop where
  valid : c.valid = true
  cfg : s.cfg = c
  blockLen : s.blockLen = some bl
  hostIn : s.hostIn = []
  opState : s.opState = .busy p

section
variable {c : Config} {bl : Word} {p q : Pos} {s : State}

theorem GoesOnAt.unhurried (h : GoesOnAt c bl p s) : Unhurried s := .inl h.hostIn

theorem GoesOnAt.step (h : GoesOnAt c bl p s) : step s = turnOutcome (fetchAt p s) :=
  step_unhurried h.unhurried h.opState

theorem GoesOnAt.took (h : GoesOnAt c bl p s) {bs rest : List Byte} : GoesOnAt c bl p (took bs rest s) :=
  ⟨h.valid, h.cfg, h.blockLen, h.hostIn, h.opState⟩

theorem GoesOnAt.sendAll (h : GoesOnAt c bl p s) {bs : List Byte} : GoesOnAt c bl p (sendAll bs s) :=
  ⟨h.valid, h.cfg, h.blockLen, h.hostIn, h.opState⟩

theorem GoesOnAt.setTb (h : GoesOnAt c bl p s) {tb : List Host.Cell} :
    GoesOnAt c bl p { s with tb := tb } :=
  ⟨h.valid, h.cfg, h.blockLen, h.hostIn, h.opState⟩

theorem GoesOnAt.movedTo (h : GoesOnAt c bl p s) : GoesOnAt c bl q (movedTo q s) :=
  ⟨h.valid, h.cfg, h.blockLen, h.hostIn, rfl⟩

end

/-! ## The move to the next block (R228, R234) -/

theorem readOn_of_lt {x : Xfer} (h : x.block < x.count) (s : State) : readOn x s = movedTo (.readToken x 1) s :=
  if_pos h

theorem readOn_multi_end (n : Nat) (s : State) :
    readOn ⟨true, n, n⟩ s = issuesNext (.readStop none) .stopTransmission 0 s := by
  simp [readOn]

theorem writeOn_of_lt {x : Xfer} (h : x.block < x.count) (s : State) : writeOn x s = movedTo (.writeFrame x) s :=
  if_pos h

theorem writeOn_multi_end (n : Nat) (s : State) : writeOn ⟨true, n, n⟩ s = movedTo (.writeStop none) s := by
  simp [writeOn]

/-! ## The polls -/

/-- Inside the budget `max` an attempt of the poll at `pos` skips an idle byte (R214, R223). -/
def SkipsIdle (c : Config) (bl : Word) (pos : Nat → Pos) (max : Nat) : Prop :=
  ∀ (k : Nat) (s : State) (rest : List Byte), GoesOnAt c bl (pos k) s → k < max → s.cardIn = c.idleFill :: rest →
    step s = .next (movedTo (pos (k + 1)) (took [c.idleFill] rest s))

/-- Such a poll inside its budget skips every idle byte before the first other. -/
theorem runs_of_skipsIdle {c : Config} {bl : Word} {pos : Nat → Pos} {max k j : Nat} {s : State} {rest : List Byte}
    (hskip : SkipsIdle c bl pos max) (h : GoesOnAt c bl (pos k) s) (hj : k + j ≤ max)
    (hcard : s.cardIn = List.replicate j c.idleFill ++ rest) :
    runs j s = .next (movedTo (pos (k + j)) (took (List.replicate j c.idleFill) rest s)) := by
  induction j generalizing k s with
  | zero =>
    have hall : took [] rest s = s := took_nil hcard
    rw [List.replicate_zero, hall, Nat.add_zero, movedTo_self h.opState]
    rfl
  | succ j ih =>
    rw [← Nat.succ_add_eq_add_succ] at hj
    refine runs_of_step (hskip k s _ h (by omega) hcard) ((ih h.took.movedTo hj rfl).trans (congrArg _ ?_))
    simp [movedTo, took, List.replicate_succ, Nat.add_assoc, Nat.add_comm 1]

/-! ## The command (R213) -/

theorem zero_ne_idleFill {c : Config} (h : c.valid = true) : (0 : Byte) ≠ c.idleFill := by
  intro hidle
  have hmask := Config.valid_not_error_token h c.idleFill (by simp)
  simp [← hidle] at hmask

/-- The state after the card answered command `k` with `m` idle bytes and then 0x00. -/
def accepted (c : Config) (k : Cmd) (arg : Word) (m : Nat) (rest : List Byte) (s : State) : State :=
  { took (List.replicate m c.idleFill ++ [0]) rest (sendAll (frame (c.idx k) arg) s) with
    pkt := frame (c.idx k) arg
    resp := [0] }

@[simp] theorem accepted_sessionValid (c : Config) (k : Cmd) (arg : Word) (m : Nat) (rest : List Byte) (s : State) :
    (accepted c k arg m rest s).sessionValid = s.sessionValid := rfl
@[simp] theorem accepted_tb (c : Config) (k : Cmd) (arg : Word) (m : Nat) (rest : List Byte) (s : State) :
    (accepted c k arg m rest s).tb = s.tb := rfl

section
variable {c : Config} {bl : Word} {x : Xfer} {p : Pos} {k : Cmd} {arg : Word} {m : Nat} {rest : List Byte} {s : State}

theorem GoesOnAt.accepted (h : GoesOnAt c bl p s) : GoesOnAt c bl p (accepted c k arg m rest s) :=
  ⟨h.valid, h.cfg, h.blockLen, h.hostIn, h.opState⟩

/-- At a position that issues a command the step is that position's own. -/
theorem GoesOnAt.step_cmd (h : GoesOnAt c bl p s) (hk : posCmd p = some k) (hpkt : s.pkt = frame (c.idx k) arg) :
    Machine.step s = ownStep arg s p := by
  obtain ⟨hv, rfl, -, -, hp⟩ := id h
  obtain ⟨crc, hrun⟩ := fetch_packet hv k arg hpkt
  rw [h.step, fetchAt_of_issues (issues_of_posCmd hk), hrun]
  exact exec_posCmd hp hk arg crc

theorem GoesOnAt.issue_accepted (h : GoesOnAt c bl p s) (hk : respLen k = 1) (hm : m < c.respPollMax)
    (hcard : s.cardIn = List.replicate m c.idleFill ++ 0 :: rest) :
    issue k arg s = (.response 0 [], Machine.accepted c k arg m rest s) := by
  obtain ⟨hv, rfl, -, -, -⟩ := h
  exact issue_response k arg m 0 [] rest hm (zero_ne_idleFill hv) (by simp [hk]) hcard

theorem step_readCmd (h : GoesOnAt c bl (.readCmd x) s) (hk : k = if x.multi then .readMulti else .readSingle)
    (hpkt : s.pkt = frame (c.idx k) arg) (hm : m < c.respPollMax)
    (hcard : s.cardIn = List.replicate m c.idleFill ++ 0 :: rest) :
    step s = .next (readOn x (accepted c k arg m rest s)) := by
  have hlen : respLen k = 1 := by rw [hk]; cases x.multi <;> rfl
  rw [h.step_cmd (congrArg some hk.symm) hpkt, ownStep, ← hk, h.issue_accepted hlen hm hcard, ← readNext_eq]
  rfl

theorem step_writeCmd (h : GoesOnAt c bl (.writeCmd x) s) (hk : k = if x.multi then .writeMulti else .writeSingle)
    (hpkt : s.pkt = frame (c.idx k) arg) (hm : m < c.respPollMax)
    (hcard : s.cardIn = List.replicate m c.idleFill ++ 0 :: rest) :
    step s = .next (writeOn x (accepted c k arg m rest s)) := by
  have hlen : respLen k = 1 := by rw [hk]; cases x.multi <;> rfl
  rw [h.step_cmd (congrArg some hk.symm) hpkt, ownStep, ← hk, h.issue_accepted hlen hm hcard, ← writeNext_eq]
  rfl

end

/-! ## A block that is received (R214) -/

section
variable {c : Config} {x : Xfer} {k : Nat} {bl : Word} {p rest : List Byte} {s : State}

theorem GoesOnAt.step_readToken {b : Byte} (h : GoesOnAt c bl (.readToken x k) s) (hcard : s.cardIn = b :: rest) :
    Machine.step s = tokenReceived x k b (Claims.took [b] rest s) := by
  rw [h.step, fetchAt, turn_readToken h.opState, recv_list hcard]

theorem idleFill_ne_rxStartToken (h : c.valid = true) (multi : Bool) : c.idleFill ≠ rxStartToken c multi := by
  have hne := Config.valid_not_idle h
  cases multi
  · exact (hne c.tokStartSingle (by simp)).symm
  · exact (hne c.tokStartMultiRd (by simp)).symm

theorem skipsIdle_readToken (c : Config) (bl : Word) (x : Xfer) : SkipsIdle c bl (.readToken x) c.tokenPollMax := by
  intro k s rest h hk hcard
  have hstart := idleFill_ne_rxStartToken h.valid x.multi
  have herr := Config.valid_not_error_token h.valid c.idleFill (by simp)
  rw [h.step_readToken hcard]
  obtain ⟨-, rfl, -, -, -⟩ := h
  exact (if_neg hstart).trans (congrArg _ ((if_neg herr).trans (if_pos hk)))

theorem recvPayload_listed {hi lo : Byte} (hlen : p.length = bl.toNat) (hcrc : crc16Check p hi lo = true)
    (hcard : s.cardIn = p ++ hi :: lo :: rest) :
    recvPayload x bl s = readOn x.next { took (p ++ [hi, lo]) rest s with
      tb := Mem.write s.tb (x.block * bl.toNat) p } := by
  have hcard' : s.cardIn = (p ++ [hi, lo]) ++ rest := by simp [hcard]
  have hpayload : (List.range bl.toNat).map (answer s) = p := by
    rw [← hlen]
    exact congrArg Prod.fst ((recvN_eq ..).symm.trans (recvN_list p _ s hcard))
  have hhi : answer s bl.toNat = hi := by simp [answer, hcard, ← hlen]
  have hlo : answer s (bl.toNat + 1) = lo := by simp [answer, hcard, ← hlen]
  have hgot : received (bl.toNat + 2) s = took (p ++ [hi, lo]) rest s := by
    rw [← received_of_listed hcard', List.length_append, hlen]
    rfl
  rw [recvPayload_eq, hpayload, hhi, hlo, hgot, if_pos (beq_iff_eq.1 hcrc)]

/-- The state after the frame of block `x` came from the card, its payload in TB. -/
def gotBlock (c : Config) (x : Xfer) (bl : Word) (p rest : List Byte) (s : State) : State :=
  { took (blockFrame (rxStartToken c x.multi) p) rest s with tb := Mem.write s.tb (x.block * bl.toNat) p }

theorem GoesOnAt.gotBlock {q : Pos} (h : GoesOnAt c bl q s) :
    GoesOnAt c bl q (gotBlock c x bl p rest s) :=
  ⟨h.valid, h.cfg, h.blockLen, h.hostIn, h.opState⟩

/-- The frame of a block is received in one step, from its start token on. -/
theorem step_readToken_frame (h : GoesOnAt c bl (.readToken x k) s)
    (hlen : p.length = bl.toNat) (hcard : s.cardIn = blockFrame (rxStartToken c x.multi) p ++ rest) :
    step s = .next (readOn x.next (gotBlock c x bl p rest s)) := by
  have hcrc := (crc16CheckAcceptsGenerated p _ _).2 rfl
  have hcard' : s.cardIn = rxStartToken c x.multi
      :: (p ++ (crc16 p).extractLsb' 8 8 :: (crc16 p).extractLsb' 0 8 :: rest) := by
    simp [hcard, blockFrame]
  rw [h.step_readToken hcard']
  obtain ⟨-, rfl, hbl, -, -⟩ := h
  refine (if_pos rfl).trans ((startReceived_of_some (s := took _ _ s) hbl).trans (congrArg _ ?_))
  rw [recvPayload_listed hlen hcrc rfl, took_took]
  rfl

end

/-! ## Busy-waits (R139) -/

section
variable {c : Config} {bl : Word} {p : Pos} {x : Xfer} {d : Byte} {err : Option ErrorKind} {busy rest : List Byte}
  {s t : State}

/-- A busy-wait receives the busy bytes, and at the idle fill it ends. -/
theorem runs_busy_listed (h : GoesOnAt c bl p s) (hp : BusyWaits p) (hbusy : ∀ b ∈ busy, b ≠ c.idleFill)
    (hcard : s.cardIn = busy ++ c.idleFill :: rest)
    (hend : step (took busy (c.idleFill :: rest) s) = .next t) : runs (busy.length + 1) s = .next t := by
  have hwait : runs busy.length s = .next (received busy.length s) :=
    runs_busyWaits h.unhurried h.opState hp fun i hi => by
      rw [answer_of_listed hcard hi, h.cfg]
      exact hbusy _ (List.getElem_mem hi)
  rw [received_of_listed hcard] at hwait
  exact runs_append hwait (runs_one hend)

theorem GoesOnAt.received_idle (h : GoesOnAt c bl p s) (hcard : s.cardIn = c.idleFill :: rest) :
    answer s 0 = s.cfg.idleFill ∧ received 1 s = Claims.took [c.idleFill] rest s :=
  ⟨(answer_zero_of_listed hcard).trans (congrArg _ h.cfg.symm), received_of_listed (bs := [c.idleFill]) hcard⟩

theorem runs_writeBusy (h : GoesOnAt c bl (.writeBusy x d) s) (hbusy : ∀ b ∈ busy, b ≠ c.idleFill)
    (hcard : s.cardIn = busy ++ c.idleFill :: rest) :
    runs (busy.length + 1) s = .next (movedTo (.writeVerdict x d) (took (busy ++ [c.idleFill]) rest s)) := by
  refine runs_busy_listed h trivial hbusy hcard ?_
  obtain ⟨hidle, hrecv⟩ := (h.took (bs := busy)).received_idle rfl
  rw [(busyWaitStep _ h.took.unhurried).1 x d h.opState, if_pos hidle, hrecv, took_took]

/-- The busy-wait of either stop sequence. -/
theorem runs_stopBusy (hp : p = .readStopBusy err ∨ p = .writeStopBusy err) (h : GoesOnAt c bl p s)
    (hbusy : ∀ b ∈ busy, b ≠ c.idleFill) (hcard : s.cardIn = busy ++ c.idleFill :: rest) :
    runs (busy.length + 1) s = .next (stopped err (took (busy ++ [c.idleFill]) rest s)) := by
  have hwaits : BusyWaits p := by obtain rfl | rfl := hp <;> trivial
  have hlast := h.took (bs := busy) (rest := c.idleFill :: rest)
  refine runs_busy_listed h hwaits hbusy hcard ?_
  obtain ⟨hidle, hrecv⟩ := hlast.received_idle rfl
  obtain ⟨-, hread, hwrite⟩ := busyWaitStep _ hlast.unhurried
  obtain rfl | rfl := hp
  · rw [hread err h.opState, if_pos hidle, hrecv, took_took]
  · rw [hwrite err h.opState, if_pos hidle, hrecv, took_took]

end

/-! ## A block that is sent (R221, R222) -/

section
variable {c : Config} {x : Xfer} {k j : Nat} {bl : Word} {d : Byte} {p busy rest : List Byte} {s : State}

theorem step_writeFrame (h : GoesOnAt c bl (.writeFrame x) s)
    (hp : Mem.readRange s.tb (x.block * bl.toNat) bl.toNat = some p) :
    step s = .next (movedTo (.dataResp x 1) (sendAll (blockFrame (txStartToken c x.multi) p) s)) := by
  rw [h.step]
  obtain ⟨hv, rfl, hbl, -, hw⟩ := h
  rw [fetchAt, turn_writeFrame hv hw, sendFrame_of_some _ hbl hp]
  rfl

theorem skipsIdle_dataResp (c : Config) (bl : Word) (x : Xfer) : SkipsIdle c bl (.dataResp x) c.drespPollMax := by
  intro k s rest h hk hcard
  obtain ⟨hidle, hrecv⟩ := h.received_idle hcard
  rw [(dataResponsePoll s x k h.unhurried h.opState).2 hidle, hrecv, if_pos (h.cfg.symm ▸ hk)]

theorem step_dataResp_token (h : GoesOnAt c bl (.dataResp x k) s) (hd : d ≠ c.idleFill)
    (hcard : s.cardIn = d :: rest) :
    step s = .next (movedTo (.writeBusy x d) (took [d] rest s)) := by
  have hanswer : answer s 0 = d := answer_zero_of_listed hcard
  have hrecv : received 1 s = took [d] rest s := received_of_listed (bs := [d]) hcard
  rw [(dataResponsePoll s x k h.unhurried h.opState).1 (by rwa [hanswer, h.cfg]), hanswer, hrecv]

theorem step_writeVerdict (h : GoesOnAt c bl (.writeVerdict x d) s) : step s = .next (verdict x d s) :=
  h.step.trans (turn_writeVerdict h.opState)

/-- The state in which the verdict on block `x` comes next: its frame was sent and the answers `got` came back. -/
def judging (c : Config) (x : Xfer) (d : Byte) (p got rest : List Byte) (s : State) : State :=
  movedTo (.writeVerdict x d) (took got rest (sendAll (blockFrame (txStartToken c x.multi) p) s))

@[simp] theorem judging_sessionValid (c : Config) (x : Xfer) (d : Byte) (p got rest : List Byte) (s : State) :
    (judging c x d p got rest s).sessionValid = s.sessionValid := rfl
@[simp] theorem judging_tb (c : Config) (x : Xfer) (d : Byte) (p got rest : List Byte) (s : State) :
    (judging c x d p got rest s).tb = s.tb := rfl

theorem GoesOnAt.judging {q : Pos} {got : List Byte} (h : GoesOnAt c bl q s) :
    GoesOnAt c bl (.writeVerdict x d) (judging c x d p got rest s) :=
  h.sendAll.took.movedTo

/-- One block from its frame to its verdict: idle bytes inside the budget, the data response, busy bytes (R221). -/
theorem runs_writeFrame (h : GoesOnAt c bl (.writeFrame x) s)
    (hp : Mem.readRange s.tb (x.block * bl.toNat) bl.toNat = some p) (hj : j < c.drespPollMax)
    (hd : d ≠ c.idleFill) (hbusy : ∀ b ∈ busy, b ≠ c.idleFill)
    (hcard : s.cardIn = List.replicate j c.idleFill ++ (d :: (busy ++ c.idleFill :: rest))) :
    runs (j + busy.length + 4) s = .next (verdict x d
      (judging c x d p (List.replicate j c.idleFill ++ (d :: (busy ++ [c.idleFill]))) rest s)) := by
  have hsteps : j + busy.length + 4 = j + ((busy.length + 1) + 1 + 1) + 1 := by omega
  have hj : 1 + j ≤ c.drespPollMax := Nat.add_comm 1 j ▸ hj
  have hpolled := h.sendAll (bs := blockFrame (txStartToken c x.multi) p) |>.movedTo (q := .dataResp x 1)
  have htoken := hpolled.took (bs := List.replicate j c.idleFill) (rest := d :: (busy ++ c.idleFill :: rest))
    |>.movedTo (q := .dataResp x (1 + j))
  have hwait := htoken.took (bs := [d]) (rest := busy ++ c.idleFill :: rest) |>.movedTo (q := .writeBusy x d)
  rw [hsteps]
  refine runs_of_step (step_writeFrame h hp) ?_
  refine runs_append (runs_of_skipsIdle (skipsIdle_dataResp c bl x) hpolled hj hcard) ?_
  refine runs_of_step (step_dataResp_token htoken hd rfl) ?_
  refine runs_append (m := busy.length + 1) (n := 1) (runs_writeBusy hwait hbusy rfl) ?_
  refine (runs_one (step_writeVerdict hwait.took.movedTo)).trans (congrArg _ (congrArg _ ?_))
  simp [judging, movedTo, took, sendAll]

end

/-! ## The stop sequences (R229, R235) -/

section
variable {c : Config} {bl : Word} {err : Option ErrorKind} {r : Byte} {busy rest : List Byte} {s : State}

/-- The stop command, answered at once, and its busy-wait. -/
theorem runs_readStop {p : Pos} (h : GoesOnAt c bl p s) (hr : r ≠ c.idleFill) (hbusy : ∀ b ∈ busy, b ≠ c.idleFill)
    (hcard : s.cardIn = r :: (busy ++ c.idleFill :: rest)) :
    runs (busy.length + 2) (issuesNext (.readStop err) .stopTransmission 0 s)
      = .next (stopped err (took (busy ++ [c.idleFill]) rest (movedTo (.readStopBusy err)
        (replied .stopTransmission 0 [r] (busy ++ c.idleFill :: rest) s)))) := by
  obtain ⟨hv, rfl, hbl, hin, -⟩ := h
  have hanswers : AnswersAtOnce (.readStop err) .stopTransmission 0 r [] (busy ++ s.cfg.idleFill :: rest)
      (issuesNext (.readStop err) .stopTransmission 0 s) := ⟨hv, hin, rfl, rfl, rfl, hr, rfl, hcard⟩
  have hstep : step (issuesNext (.readStop err) .stopTransmission 0 s) = .next (movedTo (.readStopBusy err)
      (replied .stopTransmission 0 [r] (busy ++ s.cfg.idleFill :: rest) s)) := by
    rw [hanswers.step, ownStep, hanswers.issue]
    rfl
  exact runs_of_step hstep (runs_stopBusy (.inl rfl) ⟨hv, rfl, hbl, hin, rfl⟩ hbusy rfl)

/-- The stop token and its busy-wait. -/
theorem runs_writeStop (h : GoesOnAt c bl (.writeStop err) s) (hbusy : ∀ b ∈ busy, b ≠ c.idleFill)
    (hcard : s.cardIn = busy ++ c.idleFill :: rest) :
    runs (busy.length + 2) s = .next (stopped err (took (busy ++ [c.idleFill]) rest (movedTo (.writeStopBusy err)
      (sendAll [c.tokStopMultiWr] s)))) := by
  have hstep : step s = .next (movedTo (.writeStopBusy err) (sendAll [c.tokStopMultiWr] s)) := by
    rw [h.step]
    obtain ⟨hv, rfl, -, -, hp⟩ := h
    exact turn_writeStop hv hp
  exact runs_of_step hstep (runs_stopBusy (.inr rfl) h.sendAll.movedTo hbusy hcard)

end

end Sys2Proof.Machine
end

section
/-! PROOFS. Whole runs of the two single-block operations against a card whose answers are listed (O46, O47). -/

namespace Sys2Proof.Machine
open Sys2Proof.Claims

/-- A started operation is at its first command. -/
theorem goesOnAt_started {s : State} {bl : Word} {p : Pos} {k : Cmd} {arg : Word} (hv : s.cfg.valid = true)
    (hbl : s.blockLen = some bl) (hin : s.hostIn = []) : GoesOnAt s.cfg bl p (issuesNext p k arg (select s)) :=
  ⟨hv, rfl, hbl, hin, rfl⟩

/-! ## The single-block operations (R215, R220) -/

/-- Settles O46: the command, the idle bytes of the token poll, and the block. -/
theorem readBlockRuns : Obligations.ReadBlockRuns := by
  intro s bl wa a cap m j p rest hs hv _ hin ha hwa hlen hm hj got hcard
  obtain ⟨hidle, -, hbl, -, -⟩ := id hs
  have hstart := goesOnAt_started (p := .readCmd ⟨false, 0, 1⟩) (k := .readSingle) (arg := wa) hv hbl hin
  replace hj : 1 + j ≤ s.cfg.tokenPollMax := Nat.add_comm 1 j ▸ hj
  replace hcard : s.cardIn = List.replicate m s.cfg.idleFill
      ++ 0 :: (List.replicate j s.cfg.idleFill ++ (blockFrame s.cfg.tokStartSingle p ++ rest)) := by
    simp [hcard, got]
  refine ⟨_, (exec_readBlock hidle).trans (blockStart_single_starts hs ha hwa), ?_⟩
  refine runs_of_step (step_readCmd hstart rfl rfl hm hcard) ?_
  refine runs_append (runs_of_skipsIdle (skipsIdle_readToken s.cfg bl _) hstart.accepted.movedTo hj rfl) ?_
  refine (runs_one (step_readToken_frame hstart.accepted.movedTo.took.movedTo hlen rfl)).trans (congrArg _ ?_)
  cases s
  cases hidle
  simp [readOn, ended, gotBlock, movedTo, took, accepted, sendAll, issuesNext, select, got, Xfer.next, rxStartToken]

/-- The code of a data response (R222). -/
def verdictCode (d : Byte) : BitVec 4 :=
  if d &&& 0x1F = 0x05 then 0 else if d &&& 0x1F = 0x0B then 12 else if d &&& 0x1F = 0x0D then 14 else 15

/-- The verdict on the block of `WRITE_BLOCK` ends it, with the session kept exactly where the card accepts. -/
theorem verdict_single {d : Byte} {s : State} (hs : s.sessionValid = true) : verdict ⟨false, 0, 1⟩ d s =
    ended (verdictCode d) { s with sessionValid := decide (verdictCode d = 0) } := by
  rw [verdict_eq, verdictCode]
  split_ifs
  · cases s
    cases hs
    rfl
  all_goals rfl

/-- Settles O47: the command and the one block, whose verdict ends the operation. -/
theorem writeBlockRuns : Obligations.WriteBlockRuns := by
  intro s bl wa a cap m j d p busy rest hs hv _ hin ha hwa hp hm hj hd hbusy verdict hcard
  obtain ⟨hidle, hsession, hbl, -, -⟩ := id hs
  have hstart := goesOnAt_started (p := .writeCmd ⟨false, 0, 1⟩) (k := .writeSingle) (arg := wa) hv hbl hin
  replace hcard : s.cardIn = List.replicate m s.cfg.idleFill
      ++ 0 :: (List.replicate j s.cfg.idleFill ++ (d :: (busy ++ s.cfg.idleFill :: rest))) := by
    simp [hcard]
  refine ⟨_, (exec_writeBlock hidle).trans (blockStart_single_starts hs ha hwa), ?_⟩
  refine runs_of_step (step_writeCmd hstart rfl rfl hm hcard) ?_
  refine (runs_writeFrame hstart.accepted.movedTo (by simpa using hp) hj hd hbusy rfl).trans (congrArg _ ?_)
  rw [verdict_single (by simpa using hsession)]
  cases s
  cases hidle
  simp [ended, judging, movedTo, took, accepted, sendAll, issuesNext, select, txStartToken, verdictCode, verdict]

end Sys2Proof.Machine
end

section
/-! PROOFS. Whole runs of the two multi-block operations (O48, O49): one induction over the blocks for each, between the
command and the stop sequence. -/

namespace Sys2Proof.Machine
open Sys2Proof.Claims

/-! ## TB, block after block (R52, R57) -/

/-- Reads of a range see the bytes of TB alone. -/
theorem Mem.readRange_congr {m m' : List Host.Cell} (h : ∀ k, Mem.read m k = Mem.read m' k) (a n : Nat) :
    Mem.readRange m a n = Mem.readRange m' a n := by
  induction n generalizing a with
  | zero => rfl
  | succ n ih => simp only [Mem.readRange, h, ih]

/-- Two adjoining writes read as one. -/
theorem Mem.read_write_append (m : List Host.Cell) (a : Nat) (p q : List Byte) (k : Nat) :
    Mem.read (Mem.write (Mem.write m a p) (a + p.length) q) k = Mem.read (Mem.write m a (p ++ q)) k := by
  simp only [Mem.read_write, List.length_append, List.getElem?_append]
  by_cases hlow : k < a
  · simp [show ¬ a ≤ k by omega, show ¬ a + p.length ≤ k by omega]
  by_cases hmid : k < a + p.length
  · simp [show a ≤ k by omega, show ¬ a + p.length ≤ k by omega, show k < a + (p.length + q.length) by omega,
      show k - a < p.length by omega, hmid]
  · simp [show a ≤ k by omega, show a + p.length ≤ k by omega, show ¬ k - a < p.length by omega, hmid,
      Nat.add_assoc, Nat.sub_sub]

/-- A range that reads is read in two parts. -/
theorem Mem.readRange_append {m : List Host.Cell} {a n : Nat} {p q : List Byte}
    (h : Mem.readRange m a (p.length + n) = some (p ++ q)) :
    Mem.readRange m a p.length = some p ∧ Mem.readRange m (a + p.length) n = some q := by
  have hlen : q.length = n := by
    have := Mem.readRange_length h
    rw [List.length_append] at this
    omega
  have hread := Mem.read_of_readRange m _ a _ h
  constructor
  · refine Mem.readRange_of_read m p a fun i hi => ?_
    rw [hread i (by omega), List.getElem?_append_left hi, List.getElem?_eq_getElem hi]
  · subst hlen
    refine Mem.readRange_of_read m q _ fun i hi => ?_
    rw [Nat.add_assoc, hread _ (by omega), List.getElem?_append_right (by omega), Nat.add_sub_cancel_left,
      List.getElem?_eq_getElem hi]

/-- The bytes of several blocks are those of the first and those of the rest. -/
theorem Mem.readRange_blocks {m : List Host.Cell} {j n w : Nat} {b q : List Byte} (hb : b.length = w)
    (h : Mem.readRange m (j * w) ((n + 1) * w) = some (b ++ q)) :
    Mem.readRange m (j * w) w = some b ∧ Mem.readRange m ((j + 1) * w) (n * w) = some q := by
  subst hb
  rw [Nat.succ_mul, Nat.add_comm] at h
  rw [Nat.succ_mul]
  exact Mem.readRange_append h

/-! ## The blocks of a transfer (R228, R234) -/

section
variable {c : Config} {bl : Word} {rest : List Byte}

/-- Blocks that a card sends well, each at once, end at the stop sequence with their bytes in TB one after another. -/
theorem runs_readBlocks (blocks : List (List Byte)) {p : Pos} {j n : Nat} {s : State} (h : GoesOnAt c bl p s)
    (hn : j + blocks.length = n) (hlen : ∀ b ∈ blocks, b.length = bl.toNat)
    (hcard : s.cardIn = (blocks.map (blockFrame c.tokStartMultiRd)).flatten ++ rest) :
    ∃ tb, runs blocks.length (readOn ⟨true, j, n⟩ s)
        = .next (issuesNext (.readStop none) .stopTransmission 0
          (took (blocks.map (blockFrame c.tokStartMultiRd)).flatten rest { s with tb := tb }))
      ∧ ∀ k, Mem.read tb k = Mem.read (Mem.write s.tb (j * bl.toNat) blocks.flatten) k := by
  induction blocks generalizing p j s with
  | nil =>
    have hnone : took [] rest s = s := took_nil hcard
    refine ⟨s.tb, ?_, fun k => (Mem.read_write_of_outside _ (Nat.lt_or_ge k _)).symm⟩
    cases hn
    exact congrArg _ ((readOn_multi_end j s).trans (congrArg _ hnone.symm))
  | cons b blocks ih =>
    obtain ⟨hb, hlen⟩ := List.forall_mem_cons.1 hlen
    have hcard' : s.cardIn = blockFrame (rxStartToken c true) b
        ++ ((blocks.map (blockFrame c.tokStartMultiRd)).flatten ++ rest) := by
      simp [hcard, rxStartToken]
    have hnext : j + 1 + blocks.length = n := (Nat.succ_add_eq_add_succ ..).trans hn
    have hlt : j < n := by omega
    have hstep := step_readToken_frame (x := ⟨true, j, n⟩) (k := 1) h.movedTo hb hcard'
    obtain ⟨tb, hruns, htb⟩ := ih (j := j + 1) h.movedTo.gotBlock hnext hlen rfl
    refine ⟨tb, ?_, fun k => ?_⟩
    · rw [readOn_of_lt hlt]
      refine runs_of_step hstep (hruns.trans (congrArg _ ?_))
      simp [issuesNext, took, gotBlock, movedTo, rxStartToken]
    · rw [htb, List.flatten_cons, ← Mem.read_write_append, hb, ← Nat.succ_mul]
      rfl

/-- A block that the card accepts at once is four steps. -/
theorem runs_writeFrame_accepted {x : Xfer} {d : Byte} {p : List Byte} {s : State} (h : GoesOnAt c bl (.writeFrame x) s)
    (hp : Mem.readRange s.tb (x.block * bl.toNat) bl.toNat = some p) (hd : d ≠ c.idleFill ∧ d &&& 0x1F = 0x05)
    (hcard : s.cardIn = d :: c.idleFill :: rest) :
    runs 4 s = .next (writeOn x.next (judging c x d p [d, c.idleFill] rest s)) := by
  have hbudget : 0 < c.drespPollMax := Config.valid_budgets h.valid _ (by simp)
  obtain ⟨hfirst, haccept⟩ := hd
  have hruns := runs_writeFrame (busy := []) h hp hbudget hfirst nofun hcard
  rwa [verdict_eq, if_pos haccept] at hruns

/-- The bus events of a block of `WRITE_BLOCKS` that the card accepts at once. -/
def acceptedExchange (c : Config) (p : List Byte) (d : Byte) : List BusEvent :=
  (blockFrame c.tokStartMultiWr p).map .send ++ [.recv d, .recv c.idleFill]

theorem acceptedExchange_eq (c : Config) : acceptedExchange c = fun p d =>
    (blockFrame c.tokStartMultiWr p).map .send ++ [.recv d, .recv c.idleFill] := rfl

/-- The state after the blocks were sent and the card accepted each at once, with the answers `rest` still to come. -/
def exchanged (c : Config) (blocks : List (List Byte)) (ds rest : List Byte) (s : State) : State :=
  { s with cardIn := rest, bus := s.bus ++ (List.zipWith (acceptedExchange c) blocks ds).flatten }

theorem GoesOnAt.exchanged {p : Pos} {blocks : List (List Byte)} {ds : List Byte} {s : State} (h : GoesOnAt c bl p s) :
    GoesOnAt c bl p (exchanged c blocks ds rest s) :=
  ⟨h.valid, h.cfg, h.blockLen, h.hostIn, h.opState⟩

/-- Blocks of TB that the card accepts, each at once, end at the stop token with their exchanges on the bus. -/
theorem runs_writeBlocks (blocks : List (List Byte)) {ds : List Byte} {p : Pos} {j n : Nat} {s : State}
    (h : GoesOnAt c bl p s) (hn : j + blocks.length = n) (hlen : ∀ b ∈ blocks, b.length = bl.toNat)
    (htb : Mem.readRange s.tb (j * bl.toNat) (blocks.length * bl.toNat) = some blocks.flatten)
    (hds : ds.length = blocks.length) (hd : ∀ d ∈ ds, d ≠ c.idleFill ∧ d &&& 0x1F = 0x05)
    (hcard : s.cardIn = (ds.map fun d => [d, c.idleFill]).flatten ++ rest) :
    runs (4 * blocks.length) (writeOn ⟨true, j, n⟩ s)
      = .next (movedTo (.writeStop none) (exchanged c blocks ds rest s)) := by
  induction blocks generalizing ds p j s with
  | nil =>
    obtain rfl := List.length_eq_zero_iff.1 hds
    have hnone : took [] rest s = s := took_nil hcard
    cases hn
    exact congrArg _ ((writeOn_multi_end j s).trans (congrArg _ hnone.symm))
  | cons b blocks ih =>
    obtain _ | ⟨d, ds⟩ := ds
    · cases hds
    obtain ⟨hb, hlen⟩ := List.forall_mem_cons.1 hlen
    obtain ⟨haccept, hd⟩ := List.forall_mem_cons.1 hd
    have hnext : j + 1 + blocks.length = n := (Nat.succ_add_eq_add_succ ..).trans hn
    have hlt : j < n := by omega
    obtain ⟨hfront, hback⟩ := Mem.readRange_blocks hb htb
    rw [writeOn_of_lt hlt, List.length_cons, Nat.mul_succ, Nat.add_comm]
    refine runs_append (runs_writeFrame_accepted h.movedTo (by simpa using hfront) haccept hcard) ?_
    refine (ih h.movedTo.judging hnext hlen (by simpa using hback) (Nat.succ.inj hds) hd rfl).trans
      (congrArg _ ?_)
    simp [exchanged, judging, movedTo, took, sendAll, acceptedExchange, txStartToken]

end

/-- A multi-block start in a session, of a length that is that of `n` blocks, goes on to its command (R228, R234). -/
theorem blockStart_multi_blocks {bl wa : Word} {a l n : Nat} {cap : CapClass} {s : State} {k : Word → Xfer → State}
    (hs : SessionAt bl a cap s) (hbl0 : bl ≠ 0) (ha : a % bl.toNat = 0) (hl : s.reqLen = some l)
    (hlb : l = n * bl.toNat) (hwa : wireArg cap bl a = some wa) :
    blockStart true s k = .next (k wa ⟨true, 0, n⟩) := by
  have hpos : 0 < bl.toNat := Nat.pos_of_ne_zero fun h => hbl0 (BitVec.eq_of_toNat_eq h)
  have hmod : l % bl.toNat = 0 := by rw [hlb, Nat.mul_mod_left]
  have hdiv : l / bl.toNat = n := by rw [hlb, Nat.mul_div_cancel _ hpos]
  rw [blockStart_multi_starts hs ha hl hmod hwa, hdiv]

theorem length_flatten_of_forall {n : Nat} {blocks : List (List Byte)} (h : ∀ b ∈ blocks, b.length = n) :
    blocks.flatten.length = blocks.length * n := by
  have hsum := List.sum_eq_card_nsmul (blocks.map List.length) n (by simpa using h)
  rw [List.length_flatten, hsum, List.length_map, smul_eq_mul]

/-- Settles O48: the command, the blocks (`runs_readBlocks`), the stop sequence. -/
theorem readBlocksRuns : Obligations.ReadBlocksRuns := by
  intro s bl wa a l cap blocks r busy rest hs hv hbl0 hin ha hwa hl hlb hlen hr hbusy got hcard
  obtain ⟨hidle, -, hbl, -, -⟩ := id hs
  have hexec := (exec_readBlocks hidle).trans (blockStart_multi_blocks hs hbl0 ha hl hlb hwa)
  have hstart := goesOnAt_started (p := .readCmd ⟨true, 0, blocks.length⟩) (k := .readMulti) (arg := wa) hv hbl hin
  have hpoll : 0 < s.cfg.respPollMax := Config.valid_budgets hv _ (by simp)
  replace hcard : s.cardIn = 0 :: (got ++ r :: (busy ++ s.cfg.idleFill :: rest)) := by simp [hcard]
  have haccepted := hstart.accepted (k := .readMulti) (arg := wa) (m := 0)
    (rest := got ++ r :: (busy ++ s.cfg.idleFill :: rest))
  obtain ⟨tb, hblocks, htb⟩ := runs_readBlocks (j := 0) blocks haccepted (Nat.zero_add _) hlen rfl
  rw [Nat.zero_mul] at htb
  have hflat : blocks.flatten.length = l := (length_flatten_of_forall hlen).trans hlb.symm
  have hsteps : blocks.length + busy.length + 3 = blocks.length + (busy.length + 2) + 1 := by omega
  have hruns := runs_of_step (step_readCmd (m := 0) hstart rfl rfl hpoll hcard)
    (runs_append hblocks (runs_readStop haccepted.setTb.took hr hbusy rfl))
  rw [hsteps]
  refine ⟨_, _, hexec, hruns, ?_, ?_, fun k hk => ?_⟩
  · cases s
    cases hidle
    simp [stopped, ended, movedTo, replied, exchange, took, accepted, sendAll, issuesNext, select, got]
  · refine (Mem.readRange_congr htb 0 l).trans ?_
    rw [← hflat]
    exact Mem.readRange_write ..
  · exact (htb k).trans (Mem.read_write_of_outside _ (.inr (by rwa [hflat, Nat.zero_add])))

/-- Settles O49: the command, the blocks (`runs_writeBlocks`), the stop sequence. -/
theorem writeBlocksRuns : Obligations.WriteBlocksRuns := by
  intro s bl wa a l cap blocks ds busy rest hs hv hbl0 hin ha hwa hl hlb hlen htb hds hd hbusy hcard
  obtain ⟨hidle, -, hbl, -, -⟩ := id hs
  have hexec := (exec_writeBlocks hidle).trans (blockStart_multi_blocks hs hbl0 ha hl hlb hwa)
  have hstart := goesOnAt_started (p := .writeCmd ⟨true, 0, blocks.length⟩) (k := .writeMulti) (arg := wa) hv hbl hin
  have hpoll : 0 < s.cfg.respPollMax := Config.valid_budgets hv _ (by simp)
  replace hcard : s.cardIn = 0 :: ((ds.map fun d => [d, s.cfg.idleFill]).flatten
      ++ (busy ++ s.cfg.idleFill :: rest)) := by simp [hcard]
  have haccepted := hstart.accepted (k := .writeMulti) (arg := wa) (m := 0)
    (rest := (ds.map fun d => [d, s.cfg.idleFill]).flatten ++ (busy ++ s.cfg.idleFill :: rest))
  have hblocks := runs_writeBlocks (j := 0) blocks haccepted (Nat.zero_add _) hlen
    (by simpa [← hlb] using htb) hds hd rfl
  have hsteps : 4 * blocks.length + busy.length + 3 = 4 * blocks.length + (busy.length + 2) + 1 := by omega
  rw [hsteps]
  refine ⟨_, hexec, runs_of_step (step_writeCmd (m := 0) hstart rfl rfl hpoll hcard) (runs_append hblocks
    ((runs_writeStop haccepted.exchanged.movedTo hbusy rfl).trans (congrArg _ ?_)))⟩
  cases s
  cases hidle
  simp [stopped, ended, movedTo, exchanged, took, accepted, sendAll, issuesNext, select, acceptedExchange_eq]

end Sys2Proof.Machine
end

section
/-! PROOFS. The session accessors (spec/44_session_access.md R250-R254): what the shape they share does with a register
that holds a value and with one that holds none, then each accessor of that shape (O18). -/

namespace Sys2Proof.Machine
open Sys2Proof.Claims

/-- Returning a value from an IDLE state writes the two result registers alone (R250). -/
theorem returnValue_of_idle {s : State} (h : s.opState = .idle) (v : Half) :
    returnValue v s = { s with resultValue := some v, resultKind := some 0 } :=
  endNoBus_of_idle (s := { s with resultValue := some v }) h none

section
variable {α : Type} {r : RegName} {v : Option α} {f : α → Half} {s : State}

/-- An accessor whose register holds a value returns it. -/
theorem accessor_of_some {a : α} (hidle : s.opState = .idle) (hv : v = some a) :
    whenIdle s (withReg r v fun a => .next (returnValue (f a) s))
      = .next { s with resultValue := some (f a), resultKind := some 0 } := by
  rw [whenIdle_of_idle hidle, hv, withReg, returnValue_of_idle hidle]

/-- An accessor whose register holds no value is the fault of reading it (R33, R254). -/
theorem accessor_of_none (hidle : s.opState = .idle) (hv : v = none) :
    whenIdle s (withReg r v fun a => .next (returnValue (f a) s)) = .fault (.noValue r) := by
  rw [whenIdle_of_idle hidle, hv, withReg]

end

/-- Settles O18: the three accessors are one shape over `FAMILY`, `BLOCK_LEN` and `CAP_CLASS`. -/
theorem accessorResults : Obligations.AccessorResults := by
  intro s hidle
  exact ⟨fun _ hf => accessor_of_some hidle hf, fun _ hl => accessor_of_some hidle hl,
    fun _ hc => accessor_of_some hidle hc, accessor_of_none hidle, accessor_of_none hidle, accessor_of_none hidle⟩

end Sys2Proof.Machine
end

section
/-! PROOFS. How a running operation ends (spec/60_exceptions.md): with which of R263's codes, and with `Deselect` as the
last bus event of the step (O60). -/

namespace Sys2Proof.Machine
open Sys2Proof.Claims

/-! ## The rule of a step -/

/-- If the state is the end of an operation, its code is one of `codes` (R263). -/
def EndsWithin (codes : List (BitVec 4)) (t : State) : Prop := t.opState = .idle → ∃ c ∈ codes, t.resultKind = some c

/-- The rule of R268 for a step from `s` to `t` of an operation whose codes are `codes`. -/
def ResultRule (codes : List (BitVec 4)) (s t : State) : Prop :=
  (t.opState = .idle → (∃ c ∈ codes, t.resultKind = some c) ∧ t.bus.getLast? = some .deselect)
    ∧ (t.opState ≠ .idle → t.resultKind = s.resultKind)

section
variable {codes : List (BitVec 4)} {s t u : State}

theorem endsWithin_of_busy {p : Pos} (h : t.opState = .busy p) : EndsWithin codes t := by
  intro hidle
  cases h.symm.trans hidle

theorem endsWithin_endOp (o : OpClass) {r : Option ErrorKind} (h : resultCode r ∈ codes) (s : State) :
    EndsWithin codes (endOp o r s) := fun _ => ⟨_, h, endOp_resultKind o r s⟩

theorem resultRule_of_busy {p : Pos} (h : t.opState = .busy p) (hkind : t.resultKind = s.resultKind) :
    ResultRule codes s t := by
  refine ⟨fun hidle => ?_, fun _ => hkind⟩
  cases h.symm.trans hidle

theorem resultRule_endOp {o : OpClass} {r : Option ErrorKind} (h : EndsWithin codes (endOp o r u)) :
    ResultRule codes s (endOp o r u) :=
  ⟨fun hidle => ⟨h hidle, by simp⟩, fun hbusy => absurd (endOp_opState o r u) hbusy⟩

theorem ResultRule.of_resultKind (h : ResultRule codes u t) (hkind : u.resultKind = s.resultKind) :
    ResultRule codes s t := by
  obtain ⟨hend, hgo⟩ := h
  exact ⟨hend, fun hbusy => (hgo hbusy).trans hkind⟩

/-- No host action ends an operation or writes its result (R310). -/
theorem HostOnly.resultRule {p : Pos} (h : HostOnly s t) (hs : s.opState = .busy p) : ResultRule codes s t := by
  obtain ⟨_, _, _, rfl⟩ := h
  exact resultRule_of_busy hs rfl

end

/-! ## `INIT` and `READ_STATUS` -/

theorem resultCodes_of_inInit {p : Pos} (hp : p.inInit = true) : resultCodes p = 0 :: initErrorCodes := by
  rw [resultCodes, if_pos hp]
  rfl

/-- Of the moves of `INIT` a failure ends with one of its errors, and the last with success (R183, R184). -/
theorem NegMove.resultRule {p : Pos} {s t : State} (h : NegMove p s t) : ResultRule (0 :: initErrorCodes) s t := by
  cases h with
  | goes | passes => exact resultRule_of_busy rfl rfl
  | fails g f e _ _ he => exact resultRule_endOp (endsWithin_endOp _ (r := some e) (List.mem_cons_of_mem 0 he) _)
  | readies => exact resultRule_endOp (endsWithin_endOp _ (r := none) List.mem_cons_self _)

/-- `READ_STATUS` ends with success or the timeout of its command (R160). -/
theorem finishReadStatus_resultRule (s : State) (o : Issued × State) :
    ResultRule (resultCodes .sendStatus) s (finishReadStatus o) := by
  obtain ⟨_ | ⟨r, bs⟩, u⟩ := o <;> exact resultRule_endOp (endsWithin_endOp _ (by decide) _)

/-! ## The ends of a block operation -/

section
variable {codes : List (BitVec 4)}

theorem readNext_endsWithin (h : 0 ∈ codes) (x : Xfer) (s : State) : EndsWithin codes (readNext x s) := by
  unfold readNext
  split_ifs
  · exact endsWithin_of_busy rfl
  · exact endsWithin_of_busy rfl
  · exact endsWithin_endOp _ h s

theorem readFail_endsWithin {e : ErrorKind} (h : e.code ∈ codes) (x : Xfer) (s : State) :
    EndsWithin codes (readFail x e s) := by
  unfold readFail
  split
  · exact endsWithin_of_busy rfl
  · exact endsWithin_endOp _ (r := some e) h s

theorem writeNext_endsWithin (h : 0 ∈ codes) (x : Xfer) (s : State) : EndsWithin codes (writeNext x s) := by
  unfold writeNext
  split_ifs
  · exact endsWithin_of_busy rfl
  · exact endsWithin_of_busy rfl
  · exact endsWithin_endOp _ h s

theorem writeFail_endsWithin {e : ErrorKind} (h : e.code ∈ codes) (x : Xfer) (s : State) :
    EndsWithin codes (writeFail x e s) := by
  unfold writeFail
  split
  · exact endsWithin_of_busy rfl
  · exact endsWithin_endOp _ (r := some e) h s

/-- The codes of a failed response to a block command (R213). -/
theorem checkCmdResp_code {r : Byte} {e : ErrorKind} (h : checkCmdResp r = some e) :
    e.code ∈ ([9, 10, 15] : List (BitVec 4)) := by
  unfold checkCmdResp at h
  split_ifs at h <;> cases h <;> decide

theorem blockCmdResp_endsWithin {go : State → State} {o : Issued × State} (hgo : EndsWithin codes (go o.2))
    (h : [1, 9, 10, 15] ⊆ codes) : EndsWithin codes (blockCmdResp go o) := by
  obtain ⟨_ | ⟨r, bs⟩, u⟩ := o
  · exact endsWithin_endOp _ (r := some .responseTimeout) (h (by decide)) u
  · simp only [blockCmdResp]
    split
    · exact hgo
    · next e he => exact endsWithin_endOp _ (r := some e) (h (List.mem_cons_of_mem 1 (checkCmdResp_code he))) u

/-- A busy-wait ends an operation only where it is done (R139). -/
theorem busyWait_endsWithin {done : State → State} {p : Pos} {s : State} (hs : s.opState = .busy p)
    (hdone : EndsWithin codes (done (recv s).2)) : EndsWithin codes (busyWait done s) := by
  unfold busyWait
  dsimp only
  split
  · exact hdone
  · exact endsWithin_of_busy ((recv_opState s).trans hs)

end

/-- The codes of a read (R263). -/
def readCodes : List (BitVec 4) := [0, 1, 9, 10, 12, 13, 14, 15]

/-- The codes of a write (R263). -/
def writeCodes : List (BitVec 4) := [0, 1, 9, 10, 12, 14, 15]

theorem code_mem_readCodes : ∀ e ∈ readErrors, e.code ∈ readCodes := by decide

theorem code_mem_writeCodes : ∀ e ∈ writeErrors, e.code ∈ writeCodes := by decide

/-- Success and the errors that a stop sequence keeps have codes of the operation (R228, R234). -/
theorem resultCode_mem {codes : List (BitVec 4)} {errors : List ErrorKind} {err : Option ErrorKind} (h : 0 ∈ codes)
    (hcodes : ∀ e ∈ errors, e.code ∈ codes) (herr : ∀ e, err = some e → e ∈ errors) : resultCode err ∈ codes := by
  cases err with
  | none => exact h
  | some e => exact hcodes e (herr e rfl)

theorem tokenReceived_endsWithin {x : Xfer} {k : Nat} {b : Byte} {s t : State} (h : tokenReceived x k b s = .next t) :
    EndsWithin readCodes t := by
  unfold tokenReceived at h
  split at h
  · obtain ⟨bl, -, h⟩ := withReg_eq_next.1 h
    cases h
    unfold recvPayload
    dsimp only
    split
    · exact readNext_endsWithin (by decide) _ _
    · exact readFail_endsWithin (by decide) _ _
  · cases h
    split
    · exact readFail_endsWithin (code_mem_readCodes _ (decodeErrorToken_mem b)) _ _
    · unfold tokenSkipped
      split
      · exact endsWithin_of_busy rfl
      · exact readFail_endsWithin (by decide) _ _

theorem sendFrame_endsWithin {codes : List (BitVec 4)} {tok : Byte} {x : Xfer} {s t : State}
    (h : sendFrame tok x s = .next t) : EndsWithin codes t := by
  obtain ⟨bl, -, h⟩ := withReg_eq_next.1 h
  obtain ⟨p, -, h⟩ := withReg_eq_next.1 h
  cases h
  exact endsWithin_of_busy rfl

theorem pollDataResp_endsWithin (x : Xfer) (k : Nat) (s : State) : EndsWithin writeCodes (pollDataResp x k s) := by
  unfold pollDataResp
  dsimp only
  split_ifs
  · exact endsWithin_of_busy rfl
  · exact endsWithin_of_busy rfl
  · exact writeFail_endsWithin (by decide) _ _

theorem verdict_endsWithin (x : Xfer) (b : Byte) (s : State) : EndsWithin writeCodes (verdict x b s) := by
  unfold verdict
  split_ifs
  · exact writeNext_endsWithin (by decide) _ _
  all_goals exact writeFail_endsWithin (by decide) _ _

theorem readStopIssued_endsWithin {codes : List (BitVec 4)} (err : Option ErrorKind) (o : Issued × State) :
    EndsWithin codes (readStopIssued err o) := by
  obtain ⟨_ | ⟨r, bs⟩, u⟩ := o <;> exact endsWithin_of_busy rfl

/-- At a position of a block operation the own step, if it ends the operation, does so with a code of R263; the error
kept through a stop sequence is one of the invariant's. -/
theorem ownStep_endsWithin {p : Pos} {s t : State} {arg : Word} (hi : Inv s) (hs : s.opState = .busy p)
    (hp : p.inRead = true ∨ p.inWrite = true) (h : ownStep arg s p = .next t) : EndsWithin (resultCodes p) t := by
  have hq := hi.pos p hs
  cases p with
  | reset | ifCond | ocrFamily | step4 | appPrefix | appOpCond | opCond | step5 | ocrCapacity | step6 | setBlockLen
  | sendStatus => rcases hp with hp | hp <;> cases hp
  | readCmd x =>
    cases h
    exact blockCmdResp_endsWithin (codes := readCodes) (readNext_endsWithin (by decide) x _) (by decide)
  | readToken x k => exact tokenReceived_endsWithin h
  | readStop err => cases h; exact readStopIssued_endsWithin err _
  | readStopBusy err =>
    obtain ⟨-, herr⟩ := hq
    cases h
    exact busyWait_endsWithin (codes := readCodes) hs
      (endsWithin_endOp _ (resultCode_mem (by decide) code_mem_readCodes herr) _)
  | writeCmd x =>
    cases h
    exact blockCmdResp_endsWithin (codes := writeCodes) (writeNext_endsWithin (by decide) x _) (by decide)
  | writeFrame x => exact sendFrame_endsWithin h
  | dataResp x k => cases h; exact pollDataResp_endsWithin x k s
  | writeBusy x b => cases h; exact busyWait_endsWithin hs (endsWithin_of_busy rfl)
  | writeVerdict x b => cases h; exact verdict_endsWithin x b s
  | writeStop err => cases h; exact endsWithin_of_busy rfl
  | writeStopBusy err =>
    obtain ⟨-, herr⟩ := hq
    cases h
    exact busyWait_endsWithin (codes := writeCodes) hs
      (endsWithin_endOp _ (resultCode_mem (by decide) code_mem_writeCodes herr) _)

/-! ## Every step of a running operation -/

theorem BlockInput.opState {p : Pos} {s u : State} (h : BlockInput p s u) : u.opState = s.opState := by
  obtain hu | ⟨_, _, _, _, v, -, -, -, hv, rfl⟩ := h
  · exact hu.opState
  · exact hv.opState

theorem BlockInput.resultKind {p : Pos} {s u : State} (h : BlockInput p s u) : u.resultKind = s.resultKind := by
  obtain hu | ⟨_, _, _, _, v, -, -, -, hv, rfl⟩ := h
  · exact hu.resultKind
  · exact hv.resultKind

theorem BlockMove.resultRule {codes : List (BitVec 4)} {p : Pos} {s t : State} (h : BlockMove s t)
    (hs : s.opState = .busy p) (hend : EndsWithin codes t) : ResultRule codes s t := by
  cases h with
  | stays => exact resultRule_of_busy hs rfl
  | goes => exact resultRule_of_busy rfl rfl
  | ends r => exact resultRule_endOp hend

/-- Inside a block operation the own step keeps the rule. -/
theorem ownStep_block_resultRule {p : Pos} {s t : State} {arg : Word} (hi : Inv s) (hs : s.opState = .busy p)
    (hp : p.inRead = true ∨ p.inWrite = true) (h : ownStep arg s p = .next t) : ResultRule (resultCodes p) s t := by
  obtain ⟨u, hu, hmove⟩ := ownStep_blockMove hp h
  exact (hmove.resultRule (hu.opState.trans hs) (ownStep_endsWithin hi hs hp h)).of_resultKind hu.resultKind

/-- The own step of a running operation keeps the rule. -/
theorem ownStep_resultRule {p : Pos} {s t : State} {arg : Word} (hi : Inv s) (hs : s.opState = .busy p)
    (h : ownStep arg s p = .next t) : ResultRule (resultCodes p) s t := by
  obtain hp | rfl | hp := p.classes
  · obtain ⟨hn, -⟩ := (hi.pos p hs).negotiating hp
    obtain ⟨u, hport, hmove⟩ := ownStep_negMove hp hn h
    rw [resultCodes_of_inInit hp]
    exact hmove.resultRule.of_resultKind hport.resultKind
  · cases h
    exact finishReadStatus_resultRule s _
  · exact ownStep_block_resultRule hi hs hp h

/-- Settles O60: a step is a host action, which ends nothing, or the operation's own, which keeps the rule. -/
theorem resultCodesOfOperations : Obligations.ResultCodesOfOperations := by
  intro s t p hi hs ht
  obtain hh | ⟨l, hturn⟩ := step_busy_cases hs ht
  · exact hh.resultRule hs
  · obtain ⟨arg, harg⟩ := turn_eq_ownStep (hi.hostIn l) hs
    exact ownStep_resultRule (s := { s with hostIn := l }) (hi.hostIn l) hs (harg.symm.trans hturn)

end Sys2Proof.Machine
end

section
/-! PROOFS. That an operation without a busy-wait ends (O54): each of its steps lowers a measure of its position, whose
loops are bounded by the budgets of R8, and the last step writes one of the operation's codes (O60). -/

namespace Sys2Proof.Machine
open Sys2Proof.Claims

/-! ## The measure -/

/-- The measure of a position of `INIT`, `READ_STATUS` or a single-block read: the steps after it, and the attempts its
loop and the loops after it have left (R170, R177-R180, R214, R278). -/
def stepsLeft (c : Config) : Pos → Nat
  | .reset => 11 + c.ocrPollMax + 3 * c.initPollMax
  | .ifCond => 10 + c.ocrPollMax + 3 * c.initPollMax
  | .ocrFamily => 9 + c.ocrPollMax + 3 * c.initPollMax
  | .step4 => 8 + c.ocrPollMax + 3 * c.initPollMax
  | .appPrefix _ k => 7 + c.ocrPollMax + c.initPollMax + 2 * (c.initPollMax - k)
  | .appOpCond _ k => 6 + c.ocrPollMax + c.initPollMax + 2 * (c.initPollMax - k)
  | .opCond k => 5 + c.ocrPollMax + (c.initPollMax - k)
  | .step5 => 4 + c.ocrPollMax
  | .ocrCapacity k => 3 + (c.ocrPollMax - k)
  | .step6 => 2
  | .setBlockLen => 1
  | .sendStatus => 1
  | .readCmd _ => 2 + c.tokenPollMax
  | .readToken _ k => 1 + (c.tokenPollMax - k)
  | _ => 0

/-- The state has ended the operation of position `p`, or goes on at a position of lower measure, in an operation
without a busy-wait that has the same codes. -/
def GoesForward (c : Config) (p : Pos) (t : State) : Prop :=
  ∀ q, t.opState = .busy q → BusyWaitFree q ∧ resultCodes q = resultCodes p ∧ stepsLeft c q < stepsLeft c p

theorem goesForward_of_idle {c : Config} {p : Pos} {t : State} (h : t.opState = .idle) : GoesForward c p t := by
  intro q hq
  cases h.symm.trans hq

theorem goesForward_of_busy {c : Config} {p q : Pos} {t : State} (h : t.opState = .busy q) (hfree : BusyWaitFree q)
    (hcodes : resultCodes q = resultCodes p) (hlt : stepsLeft c q < stepsLeft c p) : GoesForward c p t := by
  intro q' hq
  cases h.symm.trans hq
  exact ⟨hfree, hcodes, hlt⟩

/-! ## The steps of `INIT` go forward (R172-R183) -/

theorem step1Reset_forward (c : Config) (o : Issued × State) : GoesForward c .reset (step1Reset o) := by
  obtain ⟨_ | ⟨r, bs⟩, u⟩ := o
  · exact goesForward_of_idle rfl
  · simp only [step1Reset]
    split
    · exact goesForward_of_busy (q := .ifCond) rfl rfl rfl (by simp [stepsLeft])
    · exact goesForward_of_idle rfl

theorem step2Pass_forward (c : Config) (s : State) : GoesForward c .ifCond (step2Pass s) :=
  goesForward_of_busy (step2Pass_opState s) rfl rfl (by simp [stepsLeft])

theorem step2Voltage_forward (c : Config) (o : Issued × State) : GoesForward c .ifCond (step2Voltage o) := by
  obtain ⟨_ | ⟨r, bs⟩, u⟩ := o
  · exact goesForward_of_idle rfl
  · simp only [step2Voltage]
    split_ifs
    · exact step2Pass_forward c _
    · exact goesForward_of_idle rfl
    · exact goesForward_of_idle rfl
    · exact step2Pass_forward c _

theorem step3Pass_forward (c : Config) (s : State) : GoesForward c .ocrFamily (step3Pass s) :=
  goesForward_of_busy (step3Pass_opState s) rfl rfl (by simp [stepsLeft])

theorem step3Family_forward (c : Config) (o : Issued × State) : GoesForward c .ocrFamily (step3Family o) := by
  obtain ⟨_ | ⟨r, bs⟩, u⟩ := o
  · exact goesForward_of_idle rfl
  · simp only [step3Family]
    split_ifs
    · exact step3Pass_forward c _
    · exact step3Pass_forward c _
    · exact goesForward_of_idle rfl

theorem beginStep4_forward {c : Config} {s t : State} (h : beginStep4 s = .next t) : GoesForward c .step4 t := by
  obtain ⟨f, -, h⟩ := withReg_eq_next.1 h
  cases f with
  | mmc => cases h; exact goesForward_of_busy (q := .opCond 1) rfl rfl rfl (by simp only [stepsLeft]; omega)
  | sd =>
    obtain ⟨g, -, h⟩ := withReg_eq_next.1 h
    cases h
    exact goesForward_of_busy (q := .appPrefix (opCondArg g) 1) rfl rfl rfl (by simp only [stepsLeft]; omega)

theorem step4Prefix_forward (c : Config) (harg : Word) (k : Nat) (o : Issued × State) :
    GoesForward c (.appPrefix harg k) (step4Prefix harg k o) := by
  obtain ⟨_ | ⟨r, bs⟩, u⟩ := o
  · exact goesForward_of_idle rfl
  · simp only [step4Prefix]
    split
    · exact goesForward_of_busy (q := .appOpCond harg k) rfl rfl rfl (by simp [stepsLeft])
    · exact goesForward_of_idle (prefixFailed_opState r u)

/-- An attempt of the SD loop leads to step 5, the next attempt inside the budget, or the fallback loop (R177). -/
theorem step4AppOpCond_forward (harg : Word) (k : Nat) (o : Issued × State) :
    GoesForward o.2.cfg (.appOpCond harg k) (step4AppOpCond harg k o) := by
  obtain ⟨_ | ⟨r, bs⟩, u⟩ := o
  · exact goesForward_of_idle rfl
  · simp only [step4AppOpCond, step4Target]
    split_ifs
    · exact goesForward_of_idle rfl
    · exact goesForward_of_busy (step4Pass_opState u) rfl rfl (by simp only [stepsLeft]; omega)
    · exact goesForward_of_busy (q := .appPrefix harg (k + 1)) rfl rfl rfl (by simp only [stepsLeft]; omega)
    · exact goesForward_of_busy (q := .opCond 1) rfl rfl rfl (by simp only [stepsLeft]; omega)

theorem step4Fallback_forward (k : Nat) (o : Issued × State) :
    GoesForward o.2.cfg (.opCond k) (step4Fallback k o) := by
  obtain ⟨_ | ⟨r, bs⟩, u⟩ := o
  · exact goesForward_of_idle rfl
  · simp only [step4Fallback]
    split_ifs
    · exact goesForward_of_idle rfl
    · exact goesForward_of_busy (step4Pass_opState u) rfl rfl (by simp only [stepsLeft]; omega)
    · exact goesForward_of_busy (q := .opCond (k + 1)) rfl rfl rfl (by simp only [stepsLeft]; omega)
    · exact goesForward_of_idle rfl

theorem beginStep5_forward {c : Config} {s t : State} (h : beginStep5 s = .next t) : GoesForward c .step5 t := by
  obtain ⟨g, -, h⟩ := withReg_eq_next.1 h
  cases g with
  | v2 => cases h; exact goesForward_of_busy (q := .ocrCapacity 1) rfl rfl rfl (by simp only [stepsLeft]; omega)
  | legacy => cases h; exact goesForward_of_busy (step5Pass_opState _ s) rfl rfl (by simp only [stepsLeft]; omega)

theorem step5Ocr_forward (k : Nat) (o : Issued × State) : GoesForward o.2.cfg (.ocrCapacity k) (step5Ocr k o) := by
  obtain ⟨_ | ⟨r, bs⟩, u⟩ := o
  · exact goesForward_of_idle rfl
  · simp only [step5Ocr]
    split_ifs
    · exact goesForward_of_idle rfl
    · exact goesForward_of_busy (step5Pass_opState _ u) rfl rfl (by simp only [stepsLeft]; omega)
    · exact goesForward_of_busy (q := .ocrCapacity (k + 1)) rfl rfl rfl (by simp only [stepsLeft]; omega)
    · exact goesForward_of_idle rfl

theorem beginStep6_forward {c : Config} {s t : State} (h : beginStep6 s = .next t) : GoesForward c .step6 t := by
  obtain ⟨cap, -, h⟩ := withReg_eq_next.1 h
  cases cap with
  | standard => cases h; exact goesForward_of_busy (q := .setBlockLen) rfl rfl rfl (by simp [stepsLeft])
  | high => cases h; exact goesForward_of_idle rfl

theorem step6SetLen_forward (c : Config) (o : Issued × State) : GoesForward c .setBlockLen (step6SetLen o) := by
  obtain ⟨_ | ⟨r, bs⟩, u⟩ := o
  · exact goesForward_of_idle rfl
  · simp only [step6SetLen]
    split <;> exact goesForward_of_idle rfl

/-! ## The steps of a single-block read go forward (R214, R215) -/

section
variable {x : Xfer} (hx : x.multi = false)
include hx

theorem readFail_single_opState (e : ErrorKind) (s : State) : (readFail x e s).opState = .idle := by
  simp [readFail, hx]

theorem readNext_single_last_opState (hb : x.hasBlock = false) (s : State) : (readNext x s).opState = .idle := by
  simp [readNext, hx, hb]

theorem readCmd_forward {c : Config} (hc : 1 ≤ c.tokenPollMax) (o : Issued × State) :
    GoesForward c (.readCmd x) (blockCmdResp (readNext x) o) := by
  obtain ⟨_ | ⟨r, bs⟩, u⟩ := o
  · exact goesForward_of_idle rfl
  · simp only [blockCmdResp]
    split
    · cases hb : x.hasBlock with
      | false => exact goesForward_of_idle (readNext_single_last_opState hx hb u)
      | true =>
        exact goesForward_of_busy (q := .readToken x 1) (by simp [readNext, hb]) hx rfl
          (by simp only [stepsLeft]; omega)
    · exact goesForward_of_idle (endOp_opState ..)

theorem tokenSkipped_forward (k : Nat) (s : State) : GoesForward s.cfg (.readToken x k) (tokenSkipped x k s) := by
  unfold tokenSkipped
  split
  · exact goesForward_of_busy (q := .readToken x (k + 1)) rfl hx rfl (by simp only [stepsLeft]; omega)
  · exact goesForward_of_idle (readFail_single_opState hx _ s)

/-- The block of a single-block read is its last (R215). -/
theorem recvPayload_single_opState {s : State} (ht : Transferring x s) (bl : Word) (u : State) :
    (recvPayload x bl u).opState = .idle := by
  obtain ⟨-, -, -, hone⟩ := ht
  have hlast : x.next.hasBlock = false := by simp [Xfer.hasBlock, Xfer.next, hone hx]
  unfold recvPayload
  dsimp only
  split
  · exact readNext_single_last_opState (x := x.next) hx hlast _
  · exact readFail_single_opState hx _ _

theorem tokenReceived_forward {k : Nat} {b : Byte} {s t : State} (ht : Transferring x s)
    (h : tokenReceived x k b s = .next t) : GoesForward s.cfg (.readToken x k) t := by
  unfold tokenReceived at h
  split at h
  · obtain ⟨bl, -, h⟩ := withReg_eq_next.1 h
    cases h
    exact goesForward_of_idle (recvPayload_single_opState hx ht bl s)
  · cases h
    split
    · exact goesForward_of_idle (readFail_single_opState hx _ s)
    · exact tokenSkipped_forward hx k s

end

/-! ## A step goes forward -/

/-- In an operation without a busy-wait the own step goes forward. -/
theorem ownStep_forward {p : Pos} {s t : State} {arg : Word} (hi : Inv s) (hs : s.opState = .busy p)
    (hp : BusyWaitFree p) (h : ownStep arg s p = .next t) : GoesForward s.cfg p t := by
  cases p with
  | writeCmd | writeFrame | dataResp | writeBusy | writeVerdict | readStop | readStopBusy | writeStop | writeStopBusy =>
    cases hp
  | step4 => exact beginStep4_forward h
  | step5 => exact beginStep5_forward h
  | step6 => exact beginStep6_forward h
  | reset => cases h; exact step1Reset_forward _ _
  | ifCond => cases h; exact step2Voltage_forward _ _
  | ocrFamily => cases h; exact step3Family_forward _ _
  | appPrefix harg k => cases h; exact step4Prefix_forward _ harg k _
  | appOpCond harg k => cases h; simpa using step4AppOpCond_forward harg k (issue .appOpCond arg s)
  | opCond k => cases h; simpa using step4Fallback_forward k (issue .sendOpCond arg s)
  | ocrCapacity k => cases h; simpa using step5Ocr_forward k (issue .readOcr arg s)
  | setBlockLen => cases h; exact step6SetLen_forward _ _
  | sendStatus => cases h; exact goesForward_of_idle (finishReadStatus_opState _)
  | readCmd x => cases h; exact readCmd_forward hp (one_le_tokenPollMax hi.cfg) _
  | readToken x k =>
    obtain ⟨hx, -⟩ := hi.pos _ hs
    simpa using tokenReceived_forward hp ((PortOnly.recv s).transferring hx) h

/-- The parameters and the host's coming actions, which no own step of an operation touches. -/
def SameInputs (s t : State) : Prop := t.cfg = s.cfg ∧ t.hostIn = s.hostIn

theorem SameInputs.trans {s t u : State} (h : SameInputs s t) (h' : SameInputs t u) : SameInputs s u := by
  obtain ⟨hcfg, hin⟩ := h
  obtain ⟨hcfg', hin'⟩ := h'
  exact ⟨hcfg'.trans hcfg, hin'.trans hin⟩

theorem PortOnly.sameInputs {s t : State} (h : PortOnly s t) : SameInputs s t := ⟨h.cfg, h.hostIn⟩

theorem InitMove.sameInputs {s t : State} (h : InitMove s t) : SameInputs s t := by
  cases h <;> exact ⟨rfl, rfl⟩

theorem finishReadStatus_sameInputs (o : Issued × State) : SameInputs o.2 (finishReadStatus o) := by
  obtain ⟨_ | ⟨r, bs⟩, u⟩ := o <;> exact ⟨rfl, rfl⟩

theorem BlockInput.sameInputs {p : Pos} {s u : State} (h : BlockInput p s u) : SameInputs s u := by
  obtain hu | ⟨_, _, _, _, v, -, -, -, hv, rfl⟩ := h
  · exact hu.sameInputs
  · exact hv.sameInputs

theorem BlockMove.sameInputs {s t : State} (h : BlockMove s t) : SameInputs s t := by
  cases h with
  | stays | goes => exact ⟨rfl, rfl⟩
  | ends r => exact ⟨endOp_cfg .., endOp_hostIn ..⟩

theorem ownStep_sameInputs {p : Pos} {s t : State} {arg : Word} (h : ownStep arg s p = .next t) : SameInputs s t := by
  obtain hp | rfl | hp := p.classes
  · obtain ⟨u, hport, hmove⟩ := ownStep_initMove hp h
    exact hport.sameInputs.trans hmove.sameInputs
  · cases h
    exact (PortOnly.issue ..).sameInputs.trans (finishReadStatus_sameInputs _)
  · obtain ⟨u, hu, hmove⟩ := ownStep_blockMove hp h
    exact hu.sameInputs.trans hmove.sameInputs

/-- In an operation without a busy-wait, and with no host action to come, a step gives a next state and goes forward. -/
theorem step_forward {p : Pos} {s : State} (hi : Inv s) (hin : s.hostIn = []) (hs : s.opState = .busy p)
    (hp : BusyWaitFree p) : ∃ t, step s = .next t ∧ SameInputs s t ∧ GoesForward s.cfg p t := by
  obtain ⟨t, ht⟩ | ⟨x, _, rfl, -⟩ := runningOperationNeverStops s p hi (.inl hin) hs
  · obtain ⟨arg, harg⟩ := turn_eq_ownStep hi hs
    have hown : ownStep arg s p = .next t := by rw [← harg, ← step_unhurried (.inl hin) hs, ht]
    exact ⟨t, ht, ownStep_sameInputs hown, ownStep_forward hi hs hp hown⟩
  · cases hp

/-- Settles O54: by induction on the measure; the step that ends the operation writes one of its codes (O60). -/
theorem operationsWithoutBusyWaitEnd : Obligations.OperationsWithoutBusyWaitEnd := by
  intro s p hi hin hs hp
  induction hm : stepsLeft s.cfg p using Nat.strong_induction_on generalizing s p with
  | _ m ih =>
    obtain ⟨t, ht, ⟨hcfg, hin'⟩, hforward⟩ := step_forward hi hin hs hp
    obtain hidle | ⟨q, hq⟩ := idle_or_busy t
    · obtain ⟨hcode, -⟩ := (resultCodesOfOperations s t p hi hs ht).1 hidle
      exact ⟨1, t, runs_one ht, hidle, hcode⟩
    · obtain ⟨hfree, hcodes, hlt⟩ := hforward q hq
      obtain ⟨n, u, hrun, hidle, hcode⟩ := ih _ (hm ▸ hcfg ▸ hlt) t q (invKeptByEveryStep s t hi ht) (hin'.trans hin) hq
        hfree rfl
      exact ⟨n + 1, u, runs_of_step ht hrun, hidle, hcodes ▸ hcode⟩

end Sys2Proof.Machine
end

section
/-! PROOFS. The reset state (O12), and the host's starts and writes while an operation runs (O20). -/

namespace Sys2Proof.Machine

/-- Settles O12: reset fills the registers of R301's rows and leaves every other register, buffer and list empty. -/
theorem resetLeaves : Obligations.ResetLeaves :=
  ⟨rfl, rfl, rfl, rfl, rfl, rfl, rfl, rfl, rfl, rfl, rfl, rfl, rfl, rfl, fun _ => rfl, rfl, rfl, rfl⟩

/-- Settles O20: no start or write lets the block go on, so each is the step, and the host's arm only records it. -/
theorem busyActionsRefused : Obligations.BusyActionsRefused := by
  intro s p a rest hp hin ha
  suffices hrefused : a ≠ .wait ∧ a ≠ .pause
      ∧ hostBusy a { s with hostIn := rest } = .next (recordRefused a { s with hostIn := rest }) by
    obtain ⟨hwait, hpause, harm⟩ := hrefused
    exact (step_busy_other hp hin hwait hpause).trans harm
  obtain rfl | ⟨v, rfl⟩ | ⟨v, rfl⟩ | ⟨v, rfl⟩ | ⟨o, bs, rfl⟩ := ha
  all_goals exact ⟨nofun, nofun, rfl⟩

end Sys2Proof.Machine
end
